-- ==== Sys2Proof/Word.lean ====
section
/-! DEFINITION. The bit vectors of the CORE (00_scope.md rules R6, R8): 32-bit registers and operands, 4-bit slot indices,
opcodes and draws. -/
namespace Sys2Proof

/-- A register, an operand, a result or a command word: XLEN = 32 bits (R6, R8). -/
abbrev Word := BitVec 32

/-- A slot index of the register space: NSLOT = 16 slots (R6, R60). -/
abbrev Slot := BitVec 4

/-- The OPCODE field of a command word: OPW = 4 bits (R6, R91). -/
abbrev Opcode := BitVec 4

/-- One value of the random source: RNDW = 4 bits (R6, R14). -/
abbrev Draw := BitVec 4

end Sys2Proof
end

