-- ==== Sys2Proof/Config.lean ====
section
/-! DEFINITION. The named constants of 00_scope.md rule R7. The widths of R6 are the types of Word.lean; LATENCY is left out,
since the model carries no time (R236, notes/assumptions/10.md). The model has no free value: every value the CORE computes
is given by a rule, and the draws are inputs held in State. -/
namespace Sys2Proof

/-- PRIME_SCAN_LO: first candidate of the prime-set scan (R7, R161). -/
abbrev Config.primeScanLo : Nat := 2

/-- PRIME_SCAN_HI: last candidate of the prime-set scan (R7, R161). -/
abbrev Config.primeScanHi : Nat := 100

/-- PRIME_SEL_MAX: largest prime kept in the candidate set (R7, R161). -/
abbrev Config.primeSelMax : Nat := 50

/-- E_START: first candidate public exponent (R7, R160). -/
abbrev Config.eStart : Nat := 3

/-- E_STEP: increment of the candidate public exponent (R7, R160). -/
abbrev Config.eStep : Nat := 2

/-- E_FALLBACK: the public exponent when the scan finds none (R7, R160). -/
abbrev Config.eFallback : Nat := 65537

/-- NO_INVERSE: what `mod_inverse` returns when no inverse exists (R7, R31). -/
abbrev Config.noInverse : Int := -1

end Sys2Proof
end

