-- ==== Sys2Proof/Syntax.lean ====
section
/-! DEFINITION. The commands of RSACORE-1 (30_encoding.md rule R93): one constructor per row of spec/opcode_table.json. No
command has an operand field: operands are implicit in ARG0 to ARG2 (R92). -/
namespace Sys2Proof

/-- The eight commands, in the order of their opcodes (R93). -/
inductive Instr where
  /-- `is_prime(num)` (R131). -/
  | isprime
  /-- `gcd(a, b)` (R133). -/
  | gcd
  /-- `mod_inverse(a, m)` (R135). -/
  | modinv
  /-- `mod_pow(base, exp, modulus)` (R151). -/
  | modpow
  /-- `find_valid_e(phi)` (R163). -/
  | finde
  /-- `generate_key_pair()` (R165). -/
  | genkey
  /-- `encrypt(m, e, n)` (R180). -/
  | encrypt
  /-- `decrypt(c, d, n)` (R181). -/
  | decrypt
deriving DecidableEq, Repr

end Sys2Proof
end

