-- ==== Sys2Proof/WellFormed.lean ====
section
/-! DEFINITION. Which command words are legal (30_encoding.md rules R91, R94). An `Instr` has no field, so every `Instr` is well
formed; what can be ill formed is a word, and the two checks here are the two that R94 makes. -/
namespace Sys2Proof

/-- The ZERO field of a word, bits 31:4 (R91). -/
def zeroField (w : Word) : BitVec 28 := w.extractLsb' 4 28

/-- The OPCODE field of a word, bits 3:0 (R91). -/
def opcodeField (w : Word) : Opcode := w.extractLsb' 0 4

/-- The first check of R94: bits 31:4 are all zero. -/
def zeroFieldClear (w : Word) : Bool := zeroField w == 0

/-- The second check of R94: the opcode is one of 1 to 8. -/
def opcodeInRange (w : Word) : Bool := decide (1 ≤ (opcodeField w).toNat ∧ (opcodeField w).toNat ≤ 8)

/-- A word is legal exactly when both checks pass (R94). -/
def legalWord (w : Word) : Bool := zeroFieldClear w && opcodeInRange w

end Sys2Proof
end

