-- ==== Sys2Proof/Decode.lean ====
section
/-! DEFINITION. Decoding a command word (30_encoding.md rule R99), total on all 2^32 words, and the encoder, its inverse on the
eight commands. A word arrives whole on the host port: there are no bytes to order and no length to find (R65, R90, R96). -/
namespace Sys2Proof

/-- Why a word is Illegal. R99 has the single verdict Illegal; the model only says which of R94's two checks refused
(notes/assumptions/14.md). -/
inductive IllegalWord where
  /-- A 1 stands in bits 31:4. -/
  | zeroFieldNotZero
  /-- Bits 31:4 are zero and the opcode is 0 or 9 to 15. -/
  | noSuchOpcode
deriving DecidableEq, Repr

/-- The opcode map of R93, from opcode to command. -/
def instrOfOpcode (op : Opcode) : Option Instr :=
  match op.toNat with
  | 1 => some .isprime
  | 2 => some .gcd
  | 3 => some .modinv
  | 4 => some .modpow
  | 5 => some .finde
  | 6 => some .genkey
  | 7 => some .encrypt
  | 8 => some .decrypt
  | _ => none

/-- `decode` of R99. -/
def decode (w : Word) : Except IllegalWord Instr :=
  if zeroField w ≠ 0 then .error .zeroFieldNotZero
  else
    match instrOfOpcode (opcodeField w) with
    | some i => .ok i
    | none => .error .noSuchOpcode

/-- The opcode map of R93, from command to opcode. -/
def opcodeOf : Instr → Opcode
  | .isprime => 1
  | .gcd => 2
  | .modinv => 3
  | .modpow => 4
  | .finde => 5
  | .genkey => 6
  | .encrypt => 7
  | .decrypt => 8

/-- `encode` of R99: the opcode in bits 3:0, zeros above it (format C, R91). -/
def encode (i : Instr) : Word := (0 : BitVec 28) ++ opcodeOf i

/-- The command of the legal word `w`, none where `decode` refuses. -/
def decode? (w : Word) : Option Instr :=
  match decode w with
  | .ok i => some i
  | .error _ => none

/-- What the decoder reads from a table word of `nbits` bits: the low `nbits` bits of `w`, every bit above them 0. A command is one
32-bit word (R90), so nothing stands above bit 31. -/
def decodeTableWord (nbits w : Nat) : Option Instr :=
  decode? (BitVec.ofNat 32 (w % 2 ^ nbits))

end Sys2Proof
end

