-- ==== Sys2Proof/Machine/State.lean ====
section
/-! DEFINITION. The state of the CORE (10_state.md), the events of the environment (00_scope.md R15, 20_memory.md R70), the reasons
a step can stop, and the state after reset (70_reset_and_hazards.md R221). -/
namespace Sys2Proof.Machine

/-- The flags of STATUS (R27). The word a host reads is assembled from them (R22, `Status.word`); the reserved bits 7 and 31:12 are
stored nowhere and read 0. -/
structure Status where
  /-- Bit 0: from the acceptance of a command until its completion. -/
  busy : Bool
  /-- Bit 1: the last command issued has finished. -/
  done : Bool
  /-- Bit 2: the last command issued ended in an error. -/
  err : Bool
  /-- Bit 3: the last completed command was a MODINV that returned the sentinel. -/
  noinv : Bool
  /-- Bit 4: after an InvariantViolation, until reset. -/
  fatal : Bool
  /-- Bit 5: KEY_P to KEY_D hold a KeyPair produced since the last reset. -/
  keyvalid : Bool
  /-- Bit 6: a command issue was dropped since the last acceptance or illegal rejection. -/
  cmddrop : Bool
  /-- Bits 11:8: the error code of the last command issued. -/
  errcode : BitVec 4
deriving DecidableEq, Repr

/-- The six KEY registers, slots 6 to 11 (R26, R30). -/
structure KeyRegs where
  p : Word
  q : Word
  n : Word
  phi : Word
  e : Word
  d : Word
deriving DecidableEq, Repr

/-- The four hidden latches (R33), loaded at acceptance. -/
structure Latches where
  opc : Opcode
  op0 : Word
  op1 : Word
  op2 : Word
deriving DecidableEq, Repr

/-- The atomic events of R70. They are inputs of the machine, held as data in `State.inputs` (notes/assumptions/1.md). -/
inductive Event where
  /-- `HostWrite(slot, data)` (R62). -/
  | hostWrite (slot : Slot) (data : Word)
  /-- `HostRead(slot)` (R61). -/
  | hostRead (slot : Slot)
  /-- The random source offers the value `r`; it is consumed only while the CORE requests a draw (R75). -/
  | draw (r : Draw)
  /-- The CORE takes its completion step if it is enabled (R115). -/
  | completion
  /-- The environment applies reset (R220). -/
  | reset
deriving DecidableEq, Repr

/-- Everything the spec gives the CORE (R17): the twelve architected registers (R20) and the four hidden latches (R33); the draws the
command in progress has consumed (R34, R165); and two fields of the model's own, the environment's coming events and the data
the last host read returned. -/
structure State where
  /-- CMD, slot 0: the last accepted command word (R21). -/
  cmd : Word
  /-- STATUS, slot 1, as its flags (R27). -/
  status : Status
  /-- ARG0, slot 2 (R23). -/
  arg0 : Word
  /-- ARG1, slot 3 (R23). -/
  arg1 : Word
  /-- ARG2, slot 4 (R23). -/
  arg2 : Word
  /-- RESULT, slot 5 (R25). -/
  result : Word
  /-- KEY_P to KEY_D, slots 6 to 11 (R26). -/
  key : KeyRegs
  /-- OPC, OP0, OP1, OP2 (R33). -/
  latch : Latches
  /-- The draws consumed by the command in progress, oldest first (R34, R165). -/
  draws : List Draw
  /-- The model's own: the events still to come, the next one first (notes/assumptions/1.md). -/
  inputs : List Event
  /-- The model's own: what the last host read returned, the `h_rdata` of R74 (notes/assumptions/8.md). -/
  rdata : Word
deriving DecidableEq, Repr

/-- The machine after reset (R37, R221): every architected register 0. The latches are unspecified there; their zeros are a DESIGN
CHOICE (notes/assumptions/3.md), as are the empty lists and the zero of the model's own fields. -/
def State.reset : State where
  cmd := 0
  status := { busy := false, done := false, err := false, noinv := false, fatal := false, keyvalid := false, cmddrop := false,
              errcode := 0 }
  arg0 := 0
  arg1 := 0
  arg2 := 0
  result := 0
  key := { p := 0, q := 0, n := 0, phi := 0, e := 0, d := 0 }
  latch := { opc := 0, op0 := 0, op1 := 0, op2 := 0 }
  draws := []
  inputs := []
  rdata := 0

/-- Why the machine stops. -/
inductive Fault where
  /-- BUSY = 1 while OPC names no operation. Raised by `coreTurn` alone. Safe: R99 says that OPC holds an already legal opcode, so no
  run reaches such a state, and the model stops where the spec has no rule. -/
  | latchedOpcodeIllegal
deriving DecidableEq, Repr

/-- Why an instruction has no meaning. -/
inductive Refusal where
  /-- The instruction has no meaning in the model yet. Raised by `exec`'s refused arms alone, of which there is none. Safe. -/
  | notModelled (mnemonic : String)
deriving DecidableEq, Repr

/-- What a step of this machine answers. -/
abbrev StepOutcome := Host.Outcome State Fault Refusal

end Sys2Proof.Machine
end

