-- ==== Sys2Proof/Machine/Flags.lean ====
section
/-! DEFINITION. STATUS: the word a host reads (10_state.md R27) and what each event does to the flags (the table of R28, row by row);
the four errors and their codes (60_exceptions.md R190). -/
namespace Sys2Proof.Machine

/-- The errors of R190. -/
inductive ErrorKind where
  /-- Code 1: the word written to CMD is not one of the eight legal words. -/
  | illegalCommand
  /-- Code 2: a zero modulus. -/
  | divideByZero
  /-- Code 3: a consumed draw is 15. -/
  | rngRange
  /-- Code 4: the generator's own exponent has no inverse. -/
  | invariantViolation
deriving DecidableEq, Repr

/-- ERRCODE of an error (R190). -/
def errorCode : ErrorKind → BitVec 4
  | .illegalCommand => 1
  | .divideByZero => 2
  | .rngRange => 3
  | .invariantViolation => 4

/-- The word a read of STATUS returns (R22, R27): BUSY is bit 0, ERRCODE bits 11:8, bits 7 and 31:12 read 0. -/
def Status.word (f : Status) : Word :=
  (0 : BitVec 20) ++ f.errcode ++ (0 : BitVec 1) ++ BitVec.ofBool f.cmddrop ++ BitVec.ofBool f.keyvalid ++ BitVec.ofBool f.fatal ++
    BitVec.ofBool f.noinv ++ BitVec.ofBool f.err ++ BitVec.ofBool f.done ++ BitVec.ofBool f.busy

/-- A command issue dropped because BUSY = 1 (R28, R117). -/
def Status.dropped (f : Status) : Status := { f with cmddrop := true }

/-- A command issue rejected as illegal (R28, R112). -/
def Status.rejected (f : Status) : Status :=
  { f with done := true, err := true, errcode := errorCode .illegalCommand, noinv := false, cmddrop := false }

/-- An acceptance (R28, R113). -/
def Status.accepted (f : Status) : Status :=
  { f with busy := true, done := false, err := false, errcode := 0, noinv := false, cmddrop := false }

/-- A successful completion of ISPRIME, GCD, MODPOW, FINDE, ENCRYPT or DECRYPT (R28). -/
def Status.completed (f : Status) : Status := { f with busy := false, done := true }

/-- A successful completion of MODINV; `sentinel` says whether the sentinel was returned (R28, R135). -/
def Status.completedInverse (sentinel : Bool) (f : Status) : Status := { f.completed with noinv := sentinel }

/-- A successful completion of GENKEY (R28, R165). -/
def Status.completedKey (f : Status) : Status := { f.completed with keyvalid := true }

/-- An error completion (R28, R195): the code, and FATAL for InvariantViolation alone. -/
def Status.failed (e : ErrorKind) (f : Status) : Status :=
  { f.completed with err := true, errcode := errorCode e, fatal := f.fatal || e == .invariantViolation }

/-- The three conditions of the CORE (R110). -/
inductive Condition where
  /-- BUSY = 0 and FATAL = 0. -/
  | idle
  /-- BUSY = 1. -/
  | running
  /-- FATAL = 1. -/
  | dead
deriving DecidableEq, Repr

/-- The condition, read off STATUS; FATAL is tested first, as R111 does. -/
def Status.condition (f : Status) : Condition :=
  if f.fatal then .dead else if f.busy then .running else .idle

end Sys2Proof.Machine
end

