-- ==== Sys2Proof/Machine/Operands.lean ====
section
/-! DEFINITION. The operand convention (30_encoding.md R92, 40_command_lifecycle.md R114): one form for every command, the latches
OP0, OP1, OP2 copied from ARG0, ARG1, ARG2 at acceptance, each the full unsigned value of its register (10_state.md R24). -/
namespace Sys2Proof.Machine

/-- What an acceptance of the word `w` loads into the latches (R114). -/
def latchOperands (w : Word) (s : State) : Latches :=
  { opc := opcodeField w, op0 := s.arg0, op1 := s.arg1, op2 := s.arg2 }

/-- OP0 as an unsigned integer (R24, R92). -/
def operand0 (s : State) : Nat := s.latch.op0.toNat

/-- OP1 as an unsigned integer (R24, R92). -/
def operand1 (s : State) : Nat := s.latch.op1.toNat

/-- OP2 as an unsigned integer (R24, R92). -/
def operand2 (s : State) : Nat := s.latch.op2.toNat

/-- `trunc32` of R9. Every result the rules give is below 2^32 (R116), so it drops nothing. -/
def trunc32 (v : Nat) : Word := BitVec.ofNat 32 v

/-- A Boolean result: 1 for true, 0 for false (R25). -/
def boolResult (b : Bool) : Nat := if b then 1 else 0

/-- A result of `mod_inverse` in RESULT: the 32-bit two's-complement image, so the sentinel -1 is `0xFFFFFFFF` (R31, R116). -/
def inverseResult (v : Int) : Word := BitVec.ofInt 32 v

end Sys2Proof.Machine
end

