-- ==== Sys2Proof/Machine/Ops.lean ====
section
/-! DEFINITION. The named operations over the registers: one setter per field of State, the host's view of the sixteen slots
(20_memory.md R61, R62), command issue (40_command_lifecycle.md R111 to R118), the completions (R115, R116), raising an error
(60_exceptions.md R195) and reset (70_reset_and_hazards.md R220). -/
namespace Sys2Proof.Machine

/-- Write CMD. -/
def State.setCmd (w : Word) (s : State) : State := { s with cmd := w }

/-- Write the flags of STATUS. -/
def State.setStatus (f : Status) (s : State) : State := { s with status := f }

/-- Write ARG0. -/
def State.setArg0 (w : Word) (s : State) : State := { s with arg0 := w }

/-- Write ARG1. -/
def State.setArg1 (w : Word) (s : State) : State := { s with arg1 := w }

/-- Write ARG2. -/
def State.setArg2 (w : Word) (s : State) : State := { s with arg2 := w }

/-- Write RESULT. -/
def State.setResult (w : Word) (s : State) : State := { s with result := w }

/-- Write the six KEY registers at once. -/
def State.setKey (k : KeyRegs) (s : State) : State := { s with key := k }

/-- Load the four latches. -/
def State.setLatch (l : Latches) (s : State) : State := { s with latch := l }

/-- Replace the list of consumed draws. -/
def State.setDraws (ds : List Draw) (s : State) : State := { s with draws := ds }

/-- Replace the list of coming events. -/
def State.setInputs (es : List Event) (s : State) : State := { s with inputs := es }

/-- Record what a host read returned. -/
def State.setRdata (w : Word) (s : State) : State := { s with rdata := w }

/-- `HostRead(i)` (R61): the register of slot `i` for slots 0 to 11, zero for the reserved slots 12 to 15 (R39). -/
def hostRead (i : Slot) (s : State) : Word :=
  match i.toNat with
  | 0 => s.cmd
  | 1 => s.status.word
  | 2 => s.arg0
  | 3 => s.arg1
  | 4 => s.arg2
  | 5 => s.result
  | 6 => s.key.p
  | 7 => s.key.q
  | 8 => s.key.n
  | 9 => s.key.phi
  | 10 => s.key.e
  | 11 => s.key.d
  | _ => 0

/-- A command issue that is dropped (R117). -/
def dropCommand (s : State) : State := s.setStatus s.status.dropped

/-- A command issue whose word is illegal (R112, R191): the error IllegalCommand, reported at the issue itself. -/
def rejectCommand (s : State) : State := s.setStatus s.status.rejected

/-- An acceptance of the legal word `w` (R113, R114). The draws of an earlier command are gone (R34). -/
def acceptCommand (w : Word) (s : State) : State :=
  (((s.setCmd w).setLatch (latchOperands w s)).setStatus s.status.accepted).setDraws []

/-- A command issue, the four tests of R111 in order. -/
def issueCommand (w : Word) (s : State) : State :=
  if s.status.fatal then s
  else if s.status.busy then dropCommand s
  else
    match decode w with
    | .error _ => rejectCommand s
    | .ok _ => acceptCommand w s

/-- `HostWrite(i, v)` (R62): slot 0 is a command issue, slots 2 to 4 are the operand registers, every other slot ignores the write
(R39, R63). -/
def hostWrite (i : Slot) (v : Word) (s : State) : State :=
  match i.toNat with
  | 0 => issueCommand v s
  | 2 => s.setArg0 v
  | 3 => s.setArg1 v
  | 4 => s.setArg2 v
  | _ => s

/-- A successful completion that writes RESULT (R115, R116). The draws are a working variable: they do not survive it (R34). -/
def completeResult (v : Nat) (s : State) : State :=
  ((s.setResult (trunc32 v)).setStatus s.status.completed).setDraws []

/-- The successful completion of MODINV (R116, R135): RESULT, and NOINV when `v` is the sentinel. -/
def completeInverse (v : Int) (s : State) : State :=
  ((s.setResult (inverseResult v)).setStatus (s.status.completedInverse (decide (v = Config.noInverse)))).setDraws []

/-- The successful completion of GENKEY (R116, R169): all six KEY registers and KEYVALID, RESULT unchanged. -/
def completeKey (k : KeyRegs) (s : State) : State :=
  ((s.setKey k).setStatus s.status.completedKey).setDraws []

/-- `raise E` inside a completion step (R195): the one way a command ends in an error. It saves nothing but ERR, ERRCODE and, for
InvariantViolation, FATAL; there is no handler and no return (R199, R200): the next issue in IDLE clears or overwrites the report. -/
def raiseError (e : ErrorKind) (s : State) : State :=
  (s.setStatus (s.status.failed e)).setDraws []

/-- The guard of every completion step (R115): it is enabled exactly when BUSY = 1; while BUSY = 0 there is nothing to complete and the
state stays (notes/assumptions/5.md). -/
def whenRunning (completed : State) (s : State) : StepOutcome :=
  .next (if s.status.busy then completed else s)

/-- Reset (R220 to R222): the reset state, whatever was in progress. The environment's coming events are not the CORE's to clear. -/
def applyReset (s : State) : State := State.reset.setInputs s.inputs

end Sys2Proof.Machine
end

