-- ==== Sys2Proof/Machine/ModPow.lean ====
section
/-! DEFINITION. The modular exponentiation engine (42_modpow.md): the function `ModPow` and the command MODPOW. -/
namespace Sys2Proof.Machine

/-- The loop of `ModPow` (R150): test bit 0 of the exponent and multiply, then square, then halve; its measure is `exp`. -/
def powLoop (modulus : Nat) : Nat → Nat → Nat → Nat → Nat
  | 0, acc, _, _ => acc
  | fuel + 1, acc, base, exp =>
    if exp > 0 then
      powLoop modulus fuel (if exp % 2 = 1 then (acc * base) % modulus else acc) ((base * base) % modulus) (exp / 2)
    else acc

/-- `ModPow(base, exp, modulus)` (R150); a zero modulus raises DivideByZero before anything else (R152). -/
def modPow (base exp modulus : Nat) : Except ErrorKind Nat :=
  if modulus = 0 then .error .divideByZero
  else .ok (powLoop modulus exp 1 (base % modulus) exp)

/-- The completion that MODPOW, ENCRYPT and DECRYPT share (R116): `ModPow(OP0, OP1, OP2)` in RESULT, or the error completion. -/
def completePower (s : State) : State :=
  match modPow (operand0 s) (operand1 s) (operand2 s) with
  | .ok v => completeResult v s
  | .error e => raiseError e s

/-- MODPOW (R151). -/
def execModpow (s : State) : StepOutcome := whenRunning (completePower s) s

end Sys2Proof.Machine
end

