-- ==== Sys2Proof/Machine/EncryptDecrypt.lean ====
section
/-! DEFINITION. Encryption and decryption (44_encrypt_decrypt.md): `ModPow` under other names, operands from the latches and never from
the KEY registers (R182), no check of the precondition (R184). -/
namespace Sys2Proof.Machine

/-- ENCRYPT (R180). -/
def execEncrypt (s : State) : StepOutcome := whenRunning (completePower s) s

/-- DECRYPT (R181). -/
def execDecrypt (s : State) : StepOutcome := whenRunning (completePower s) s

end Sys2Proof.Machine
end

