-- ==== Sys2Proof/Machine/NumberTheory.lean ====
section
/-! DEFINITION. The number theory unit (41_number_theory.md): the functions `IsPrime`, `Gcd`, `ModInverse` and the commands ISPRIME,
GCD, MODINV. Each loop carries as fuel a bound on its termination measure, so it never ends for want of fuel. -/
namespace Sys2Proof.Machine

/-- The loop of `IsPrime` (R130), with the bound tested as `i*i <= num` (R138). -/
def trialDivide (num : Nat) : Nat → Nat → Bool
  | 0, _ => true
  | fuel + 1, i =>
    if i * i ≤ num then
      if num % i = 0 then false else trialDivide num fuel (i + 2)
    else true

/-- `IsPrime(num)` (R130). -/
def isPrime (num : Nat) : Bool :=
  if num < 2 then false
  else if num = 2 then true
  else if num % 2 = 0 then false
  else trialDivide num num 3

/-- The loop of `Gcd` (R132); its measure is `b`. -/
def euclidLoop : Nat → Nat → Nat → Nat
  | 0, a, _ => a
  | fuel + 1, a, b => if b ≠ 0 then euclidLoop fuel b (a % b) else a

/-- `Gcd(a, b)` (R132). -/
def euclidGcd (a b : Nat) : Nat := euclidLoop b a b

/-- The loop of `ModInverse` (R134), from the remainder pair `(a, m)` and the coefficients `x0`, `x1` to the final `x1`; its measure
is `m`. -/
def inverseLoop : Nat → Nat → Nat → Int → Int → Int
  | 0, _, _, _, x1 => x1
  | fuel + 1, a, m, x0, x1 =>
    if a > 1 then inverseLoop fuel m (a % m) (x1 - (a / m : Nat) * x0) x0 else x1

/-- `ModInverse(a, m)` (R134): -1, or the final coefficient with `m` added once if it is negative. The measure `m` falls from at
most its entry value to 0 and the loop ends at the test after that, so `m + 1` rounds are enough. -/
def modInverse (a m : Nat) : Int :=
  if euclidGcd a m ≠ 1 then Config.noInverse
  else
    let x1 := inverseLoop (m + 1) a m 0 1
    if x1 < 0 then x1 + m else x1

/-- ISPRIME (R131). -/
def execIsprime (s : State) : StepOutcome :=
  whenRunning (completeResult (boolResult (isPrime (operand0 s))) s) s

/-- GCD (R133). -/
def execGcd (s : State) : StepOutcome :=
  whenRunning (completeResult (euclidGcd (operand0 s) (operand1 s)) s) s

/-- MODINV (R135). -/
def execModinv (s : State) : StepOutcome :=
  whenRunning (completeInverse (modInverse (operand0 s) (operand1 s)) s) s

end Sys2Proof.Machine
end

