-- ==== Sys2Proof/Machine/KeyGen.lean ====
section
/-! DEFINITION. The RSA key-pair generator (43_keygen.md): the function `FindValidE`, the prime table, the generator as a function of
the consumed draws, and the commands FINDE and GENKEY. -/
namespace Sys2Proof.Machine

/-- The loop of `FindValidE` (R160); its measure is `phi + 1 - e`. -/
def exponentScan (phi : Nat) : Nat → Nat → Nat
  | 0, _ => Config.eFallback
  | fuel + 1, e =>
    if e < phi then
      if euclidGcd e phi = 1 then e else exponentScan phi fuel (e + Config.eStep)
    else Config.eFallback

/-- `FindValidE(phi)` (R160). -/
def findValidE (phi : Nat) : Nat := exponentScan phi phi Config.eStart

/-- `BuildPrimeTable()` (R161): the scan in increasing order, so the table ascends (R162). -/
def primeTable : List Nat :=
  (List.range' Config.primeScanLo (Config.primeScanHi + 1 - Config.primeScanLo)).filter
    (fun k => isPrime k && decide (k ≤ Config.primeSelMax))

/-- What the draws consumed so far settle about `p` and `q` (steps 2 and 3 of R164). -/
inductive Selection where
  /-- Another draw is needed. -/
  | waiting
  /-- The last draw was 15. -/
  | outOfRange
  /-- Two distinct primes are chosen. -/
  | chosen (p q : Nat)
deriving DecidableEq, Repr

/-- The draw `r` selects the prime `tab[r]` (R164). -/
def primeAt (tab : List Nat) (r : Draw) : Nat := tab.getD r.toNat 0

/-- Step 3 of R164: draw `q`, again and again until it differs from `p`. -/
def selectQ (tab : List Nat) (p : Nat) : List Draw → Selection
  | [] => .waiting
  | r :: rest =>
    if r = 15 then .outOfRange
    else if primeAt tab r ≠ p then .chosen p (primeAt tab r)
    else selectQ tab p rest

/-- Steps 2 and 3 of R164. -/
def selectPrimes (tab : List Nat) : List Draw → Selection
  | [] => .waiting
  | r0 :: rest => if r0 = 15 then .outOfRange else selectQ tab (primeAt tab r0) rest

/-- The six integers of a KeyPair (R30). -/
structure KeyPair where
  p : Nat
  q : Nat
  n : Nat
  phi : Nat
  e : Nat
  d : Nat
deriving DecidableEq, Repr

/-- How `GenerateKeyPair` stands after the draws consumed so far. -/
inductive KeyGenOutcome where
  /-- It waits for a draw (R166). -/
  | waiting
  /-- It raises an error. -/
  | failed (e : ErrorKind)
  /-- It returns a KeyPair. -/
  | made (k : KeyPair)
deriving DecidableEq, Repr

/-- Steps 4 to 7 of R164; no inverse of the generator's own `e` is an InvariantViolation (R167). -/
def deriveKey (p q : Nat) : KeyGenOutcome :=
  let n := p * q
  let phi := (p - 1) * (q - 1)
  let e := findValidE phi
  let d := modInverse e phi
  if d = Config.noInverse then .failed .invariantViolation
  else .made { p := p, q := q, n := n, phi := phi, e := e, d := d.toNat }

/-- `GenerateKeyPair()` as a function of the draws (R164). -/
def generateKeyPair (draws : List Draw) : KeyGenOutcome :=
  match selectPrimes primeTable draws with
  | .waiting => .waiting
  | .outOfRange => .failed .rngRange
  | .chosen p q => deriveKey p q

/-- The six KEY registers of a KeyPair. -/
def keyRegsOf (k : KeyPair) : KeyRegs :=
  { p := trunc32 k.p, q := trunc32 k.q, n := trunc32 k.n, phi := trunc32 k.phi, e := trunc32 k.e, d := trunc32 k.d }

/-- The pin `rnd_req` (R75): 1 while the CORE waits for a draw, which only a GENKEY in progress does. -/
def rndReq (s : State) : Bool :=
  s.status.busy && s.latch.opc == opcodeOf .genkey && selectPrimes primeTable s.draws == .waiting

/-- The random source offers `r`: consumed while `rnd_req = 1`, otherwise not (R75). -/
def offerDraw (r : Draw) (s : State) : State :=
  if rndReq s then s.setDraws (s.draws ++ [r]) else s

/-- FINDE (R163). -/
def execFinde (s : State) : StepOutcome :=
  whenRunning (completeResult (findValidE (operand0 s)) s) s

/-- The completion of GENKEY (R165). It is not enabled until the deciding draw is consumed (R115): until then the state stays. -/
def completeGenkey (s : State) : State :=
  match generateKeyPair s.draws with
  | .waiting => s
  | .failed e => raiseError e s
  | .made k => completeKey (keyRegsOf k) s

/-- GENKEY (R165). -/
def execGenkey (s : State) : StepOutcome := whenRunning (completeGenkey s) s

end Sys2Proof.Machine
end

