-- ==== Sys2Proof/Machine/Events.lean ====
section
/-! DEFINITION. What one event does (20_memory.md R70): a host access, an offered draw, the CORE's own step, reset; which event comes
next; and the placing of a command word. -/
namespace Sys2Proof.Machine

/-- The CORE's one step (40_command_lifecycle.md R115): while BUSY = 1 the completion of the operation that OPC selects, otherwise
nothing (R204: an IDLE CORE does nothing until the next command issue). -/
def coreTurn (s : State) : StepOutcome :=
  if s.status.busy then
    match instrOfOpcode s.latch.opc with
    | some i => exec i s
    | none => .fault .latchedOpcodeIllegal
  else .next s

/-- One event (R70). A host read changes nothing of the CORE (R61); what it returned is recorded for the host. -/
def takeEvent (ev : Event) (s : State) : StepOutcome :=
  match ev with
  | .hostWrite i v => .next (hostWrite i v s)
  | .hostRead i => .next (s.setRdata (hostRead i s))
  | .draw r => .next (offerDraw r s)
  | .completion => coreTurn s
  | .reset => .next (applyReset s)

/-- The next event of the machine: the head of `inputs`; with no input pending, the CORE takes its step (R121, weak fairness;
notes/assumptions/2.md). -/
def advance (s : State) : StepOutcome :=
  match s.inputs with
  | [] => coreTurn s
  | ev :: rest => takeEvent ev (s.setInputs rest)

/-- The events `evs` in order, stopping at the first fault or refusal. -/
def takeEvents : List Event → State → StepOutcome
  | [], s => .next s
  | ev :: rest, s =>
    match takeEvent ev s with
    | .next t => takeEvents rest t
    | .fault r => .fault r
    | .refused r => .refused r

/-- The CORE's step put first: nothing to add when no input is pending, since the CORE then has the step. -/
def coreFirst (es : List Event) : List Event :=
  match es with
  | [] => []
  | _ :: _ => .completion :: es

/-- The state in which the next event runs the word `w` (notes/assumptions/11.md). There is no program counter and no fetch (R35, R73):
a legal word is accepted (R113), with, for GENKEY, the draws 2 and 4 of the worked example of R165 consumed, and the CORE has the
next step; the write of an illegal word, which no acceptance follows, is the next event itself. -/
def placeCommand (w : Word) (s : State) : State :=
  match decode w with
  | .ok i =>
    ((acceptCommand w s).setDraws (if i = .genkey then [2, 4] else [])).setInputs (coreFirst s.inputs)
  | .error _ => s.setInputs (.hostWrite 0 w :: s.inputs)

end Sys2Proof.Machine
end

