-- ==== Sys2Proof/Machine/Step.lean ====
section
/-! DEFINITION. One step of the machine, and the placing of a table word where the next step runs it. Both only call operations of
Machine/Events.lean. -/
namespace Sys2Proof.Machine

/-- One step: the next event of 20_memory.md R70. -/
def step (s : State) : Host.Outcome State Fault Refusal := advance s

/-- `s` with the word `w`, of which the table gives `nbits` bits, placed so that the very next step runs it. -/
def State.withFetchWord (s : State) (nbits w : Nat) : State :=
  placeCommand (BitVec.ofNat 32 (w % 2 ^ nbits)) s

end Sys2Proof.Machine
end

