-- ==== Sys2Proof/Machine/Port.lean ====
section
/-! DEFINITION. The pins (20_memory.md R74, R75; 70_reset_and_hazards.md R220): one rising edge of `clk` as the events it stands for. -/
namespace Sys2Proof.Machine

/-- The input pins in one clock cycle, `clk` apart (R74, R75, R220). -/
structure Pins where
  /-- `rst`: synchronous reset, active high. -/
  rst : Bool
  /-- `h_sel`: the host performs an access. -/
  hSel : Bool
  /-- `h_we`: 1 is a write. -/
  hWe : Bool
  /-- `h_addr`: the slot index. -/
  hAddr : Slot
  /-- `h_wdata`: the write data. -/
  hWdata : Word
  /-- `rnd_valid`: `rnd_idx` is a fresh value. -/
  rndValid : Bool
  /-- `rnd_idx`: the value of the draw. -/
  rndIdx : Draw
deriving DecidableEq, Repr

/-- The pin `h_rdata` (R74): the slot read, on the state at the start of the cycle; no value in a cycle without a read. -/
def hRdata (p : Pins) (s : State) : Option Word :=
  if p.hSel && !p.hWe then some (hostRead p.hAddr s) else none

/-- The host access of a cycle, at most one (R74). -/
def hostEvents (p : Pins) : List Event :=
  if p.hSel then [if p.hWe then .hostWrite p.hAddr p.hWdata else .hostRead p.hAddr] else []

/-- The events of one clock edge, judged on the state at the start of the cycle. With `rst = 1` there is only the reset (R220). Otherwise
the host access comes first and the completion last (R74); `finishes` says whether the CORE's latency ends at this edge, which no
rule fixes (R236); a command accepted at this edge cannot finish at it, since LATENCY >= 1 (R6). -/
def edgeEvents (p : Pins) (finishes : Bool) (s : State) : List Event :=
  if p.rst then [.reset]
  else
    hostEvents p ++ (if p.rndValid && rndReq s then [.draw p.rndIdx] else []) ++
      (if finishes && s.status.busy && !rndReq s then [.completion] else [])

/-- The state after one clock edge. -/
def clockEdge (p : Pins) (finishes : Bool) (s : State) : StepOutcome :=
  takeEvents (edgeEvents p finishes s) s

end Sys2Proof.Machine
end

