-- ==== Sys2Proof/Safety.lean ====
section
/-! DEFINITION. What claims about the CORE are stated in: the invariants of STATUS (10_state.md R29), of the latches (R99) and of the KEY
registers (R30), the mathematical values of the operations, and what a completion leaves alone. -/
namespace Sys2Proof.Machine

/-- R29 (a): BUSY and DONE are never both 1. -/
abbrev BusyDoneExclusive (s : State) : Prop := ¬ (s.status.busy = true ∧ s.status.done = true)

/-- R29 (b): ERR = 1 implies DONE = 1 and ERRCODE in 1 to 4; ERR = 0 implies ERRCODE = 0. -/
abbrev ErrorReported (s : State) : Prop :=
  (s.status.err = true → s.status.done = true ∧ 1 ≤ s.status.errcode.toNat ∧ s.status.errcode.toNat ≤ 4) ∧
    (s.status.err = false → s.status.errcode = 0)

/-- R29 (c): NOINV = 1 implies DONE = 1, ERR = 0, RESULT = `0xFFFFFFFF` and CMD[3:0] = 3. -/
abbrev SentinelReported (s : State) : Prop :=
  s.status.noinv = true →
    s.status.done = true ∧ s.status.err = false ∧ s.result = 0xFFFFFFFF ∧ opcodeField s.cmd = 3

/-- R29 (d), first sentence up to STATUS's changes: FATAL = 1 implies BUSY = 0, DONE = 1, ERR = 1, ERRCODE = 4. -/
abbrev FatalReported (s : State) : Prop :=
  s.status.fatal = true →
    s.status.busy = false ∧ s.status.done = true ∧ s.status.err = true ∧ s.status.errcode = 4

/-- R29 (e): KEYVALID = 0 implies KEY_P to KEY_D all read 0. -/
abbrev NoKeyReadsZero (s : State) : Prop :=
  s.status.keyvalid = false → s.key = { p := 0, q := 0, n := 0, phi := 0, e := 0, d := 0 }

/-- R99, R113, R114: while BUSY = 1 the CMD register holds a legal word and OPC its opcode. -/
abbrev LatchedLegal (s : State) : Prop :=
  s.status.busy = true → legalWord s.cmd = true ∧ s.latch.opc = opcodeField s.cmd

/-- The invariants of STATUS that are relations between fields of the state, R29 (a) to (e), with the one on the latches they need. -/
abbrev StatusInv (s : State) : Prop :=
  BusyDoneExclusive s ∧ ErrorReported s ∧ SentinelReported s ∧ FatalReported s ∧ NoKeyReadsZero s ∧ LatchedLegal s

/-- The fifteen primes of R162, written out. -/
abbrev candidatePrimes : List Nat := [2, 3, 5, 7, 11, 13, 17, 19, 23, 29, 31, 37, 41, 43, 47]

/-- What R30 says of the six KEY registers whenever they hold a KeyPair. -/
abbrev KeyPairValid (k : KeyRegs) : Prop :=
  k.p.toNat ∈ candidatePrimes ∧ k.q.toNat ∈ candidatePrimes ∧ k.p.toNat.Prime ∧ k.q.toNat.Prime ∧ k.p ≠ k.q ∧
    k.n.toNat = k.p.toNat * k.q.toNat ∧ k.phi.toNat = (k.p.toNat - 1) * (k.q.toNat - 1) ∧
    6 ≤ k.n.toNat ∧ k.n.toNat ≤ 2021 ∧ 2 ≤ k.phi.toNat ∧ k.phi.toNat ≤ 1932 ∧
    k.e.toNat ∈ [3, 5, 7, 11, 65537] ∧ Nat.gcd k.e.toNat k.phi.toNat = 1 ∧
    1 ≤ k.d.toNat ∧ k.d.toNat ≤ 1325 ∧ k.d.toNat < k.phi.toNat ∧ (k.e.toNat * k.d.toNat) % k.phi.toNat = 1

/-- R30, last sentence: KEYVALID = 1 says that the KEY registers hold a KeyPair. -/
abbrev KeyInv (s : State) : Prop := s.status.keyvalid = true → KeyPairValid s.key

/-- The value R160 gives for the public-exponent search: 65537 when there is no candidate below `phi`, otherwise the smallest odd
`e >= 3` coprime to `phi`, which lies below `phi`. -/
def IsFirstExponent (phi e : Nat) : Prop :=
  (phi ≤ 3 ∧ e = 65537) ∨
    (4 ≤ phi ∧ 3 ≤ e ∧ e < phi ∧ e % 2 = 1 ∧ Nat.gcd e phi = 1 ∧
      ∀ x, 3 ≤ x → x < e → x % 2 = 1 → Nat.gcd x phi ≠ 1)

/-- The value R154 gives for a modular power: `base^exp mod modulus`, but 1 for `modulus = 1` and `exp = 0`. -/
def powerValue (base exp modulus : Nat) : Nat :=
  if modulus = 1 ∧ exp = 0 then 1 else base ^ exp % modulus

/-- The rows of R136: `v` is the value of `ModInverse(a, m)`. -/
def IsInverseValue (a m : Nat) (v : Int) : Prop :=
  (Nat.gcd a m ≠ 1 ∧ v = -1) ∨
    (2 ≤ m ∧ Nat.gcd a m = 1 ∧ 1 ≤ v ∧ v < m ∧ (a * v) % m = 1) ∨
    (m = 1 ∧ 2 ≤ a ∧ v = 0) ∨ (m = 1 ∧ a ≤ 1 ∧ v = 1) ∨ (m = 0 ∧ a = 1 ∧ v = 1)

/-- What every completion leaves alone (R115, R120): CMD, the operand registers, and what is not the CORE's. The latches are left out: R33
leaves their value unspecified once BUSY = 0 (that the model keeps them is notes/assumptions/4.md). -/
abbrev CompletionFrame (s t : State) : Prop :=
  t.cmd = s.cmd ∧ t.arg0 = s.arg0 ∧ t.arg1 = s.arg1 ∧ t.arg2 = s.arg2 ∧ t.inputs = s.inputs ∧ t.rdata = s.rdata

/-- Every slot of the register space reads 0. -/
abbrev AllSlotsReadZero (s : State) : Prop := ∀ i : Slot, hostRead i s = 0

end Sys2Proof.Machine
end

