-- ==== Sys2Proof/Certificates/Slice0/Obligations.lean ====
section
/-! DEFINITION. The statements for the provers. Each docstring names the rule of spec/ it formalises. `takeEvent ev s` is one event of
20_memory.md R70 in the state `s`; one statement says that a step takes the next event of `State.inputs`. -/

open Sys2Proof Sys2Proof.Machine

/-! ### Encoding (30_encoding.md) -/

/-- R93: the opcode map, every bit of every word. A word decodes to a command exactly when it is that command's word, so `decode` and
`encode` are inverse on the eight commands. -/
def Obligations.DecodeAndEncodeAgree : Prop :=
  (∀ (w : Word) (i : Instr), decode w = .ok i ↔ w = encode i) ∧
    encode .isprime = 0x00000001 ∧ encode .gcd = 0x00000002 ∧ encode .modinv = 0x00000003 ∧ encode .modpow = 0x00000004 ∧
    encode .finde = 0x00000005 ∧ encode .genkey = 0x00000006 ∧ encode .encrypt = 0x00000007 ∧ encode .decrypt = 0x00000008

/-- R94: the legal words are exactly `0x00000001` to `0x00000008`; every other word, issued in IDLE, raises IllegalCommand and
starts nothing. -/
def Obligations.LegalWordsAreExactlyOneToEight : Prop :=
  ∀ w : Word,
    ((∃ i, decode w = .ok i) ↔ w >>> 4 = 0 ∧ 1 ≤ (w.extractLsb' 0 4).toNat ∧ (w.extractLsb' 0 4).toNat ≤ 8) ∧
    ((∃ i, decode w = .ok i) ↔ 1 ≤ w.toNat ∧ w.toNat ≤ 8) ∧
    (legalWord w = true ↔ 1 ≤ w.toNat ∧ w.toNat ≤ 8) ∧
    ∀ s : State, s.status.busy = false → s.status.fatal = false → ¬ (1 ≤ w.toNat ∧ w.toNat ≤ 8) →
      (hostWrite 0 w s).status.busy = false ∧ (hostWrite 0 w s).status.err = true ∧
        (hostWrite 0 w s).status.errcode = errorCode .illegalCommand

/-- R93, on the words as the table writes them: a sanity check of the decoder. -/
def Obligations.TableWordsDecode : Prop :=
  decode 0b00000000000000000000000000000001#32 = .ok .isprime ∧
    decode 0b00000000000000000000000000000011#32 = .ok .modinv ∧
    decode 0b00000000000000000000000000000100#32 = .ok .modpow ∧
    decode 0b00000000000000000000000000000110#32 = .ok .genkey ∧
    decode 0b00000000000000000000000000001000#32 = .ok .decrypt

/-! ### Host port (20_memory.md, 10_state.md) -/

/-- R61: a host read returns the register of slots 0 to 11 and zero for slots 12 to 15, and changes no state of any kind: neither a
register nor a latch nor the consumed draws. -/
def Obligations.HostReadReturnsTheSlot : Prop :=
  ∀ (s : State) (i : Slot),
    hostRead i s =
      (if i = 0 then s.cmd else if i = 1 then s.status.word else if i = 2 then s.arg0 else if i = 3 then s.arg1
        else if i = 4 then s.arg2 else if i = 5 then s.result else if i = 6 then s.key.p else if i = 7 then s.key.q
        else if i = 8 then s.key.n else if i = 9 then s.key.phi else if i = 10 then s.key.e else if i = 11 then s.key.d
        else 0) ∧
    ∃ t, takeEvent (.hostRead i) s = .next t ∧ t.cmd = s.cmd ∧ t.status = s.status ∧ t.arg0 = s.arg0 ∧ t.arg1 = s.arg1 ∧
      t.arg2 = s.arg2 ∧ t.result = s.result ∧ t.key = s.key ∧ t.latch = s.latch ∧ t.draws = s.draws

/-- R62: a host write by slot: slot 0 is a command issue, slots 2 to 4 are written, every other slot ignores the write. -/
def Obligations.HostWriteActsBySlot : Prop :=
  ∀ (s : State) (i : Slot) (v : Word),
    hostWrite i v s =
      (if i = 0 then issueCommand v s else if i = 2 then { s with arg0 := v } else if i = 3 then { s with arg1 := v }
        else if i = 4 then { s with arg2 := v } else s)

/-- R63: a host write to a read-only register (slots 1 and 5 to 11) changes nothing. -/
def Obligations.ReadOnlyRegistersIgnoreWrites : Prop :=
  ∀ (s : State) (i : Slot) (v : Word), (i = 1 ∨ 5 ≤ i.toNat ∧ i.toNat ≤ 11) →
    hostWrite i v s = s ∧ takeEvent (.hostWrite i v) s = .next s

/-- R39: slots 12 to 15 read as zero and a write to them changes nothing. -/
def Obligations.ReservedSlotsReadZeroAndIgnoreWrites : Prop :=
  ∀ (s : State) (i : Slot) (v : Word), 12 ≤ i.toNat →
    hostRead i s = 0 ∧ hostWrite i v s = s ∧ takeEvent (.hostWrite i v) s = .next s

/-- The layout of STATUS (10_state.md section 2): what each bit of the word read from slot 1 is; the reserved bits 7 and 31:12 read 0. -/
def Obligations.StatusWordBits : Prop :=
  ∀ s : State,
    (hostRead 1 s).getLsbD 0 = s.status.busy ∧ (hostRead 1 s).getLsbD 1 = s.status.done ∧
    (hostRead 1 s).getLsbD 2 = s.status.err ∧ (hostRead 1 s).getLsbD 3 = s.status.noinv ∧
    (hostRead 1 s).getLsbD 4 = s.status.fatal ∧ (hostRead 1 s).getLsbD 5 = s.status.keyvalid ∧
    (hostRead 1 s).getLsbD 6 = s.status.cmddrop ∧ (hostRead 1 s).getLsbD 7 = false ∧
    (hostRead 1 s).extractLsb' 8 4 = s.status.errcode ∧ (hostRead 1 s).extractLsb' 12 20 = 0

/-- The operand registers (10_state.md section 1): a host write to their own slot sets them at any time, and no other event but reset
changes them. -/
def Obligations.OperandRegistersAreWrittenByTheHostOnly : Prop :=
  ∀ (ev : Event) (s t : State), takeEvent ev s = .next t → ev ≠ .reset →
    ((∀ v, ev ≠ .hostWrite 2 v) → t.arg0 = s.arg0) ∧ (∀ v, ev = .hostWrite 2 v → t.arg0 = v) ∧
    ((∀ v, ev ≠ .hostWrite 3 v) → t.arg1 = s.arg1) ∧ (∀ v, ev = .hostWrite 3 v → t.arg1 = v) ∧
    ((∀ v, ev ≠ .hostWrite 4 v) → t.arg2 = s.arg2) ∧ (∀ v, ev = .hostWrite 4 v → t.arg2 = v)

/-- RESULT (10_state.md section 1): it changes only at a completion, without error, of a command other than GENKEY, or by reset. -/
def Obligations.ResultIsWrittenByCompletionsOnly : Prop :=
  ∀ (ev : Event) (s t : State), takeEvent ev s = .next t → t.result ≠ s.result →
    ev = .reset ∨
      (ev = .completion ∧ s.status.busy = true ∧ s.latch.opc ≠ opcodeOf .genkey ∧ t.status.busy = false ∧
        t.status.done = true ∧ t.status.err = s.status.err)

/-- The KeyPair (10_state.md section 3): the KEY registers and KEYVALID change only at a completion of GENKEY, all in that one event, or
by reset. -/
def Obligations.KeyRegistersAreWrittenByGenkeyOnly : Prop :=
  ∀ (ev : Event) (s t : State), takeEvent ev s = .next t →
    (t.key ≠ s.key ∨ t.status.keyvalid ≠ s.status.keyvalid) →
    ev = .reset ∨
      (ev = .completion ∧ s.status.busy = true ∧ s.latch.opc = opcodeOf .genkey ∧ t.status.busy = false ∧
        t.status.keyvalid = true ∧ ∃ k, generateKeyPair s.draws = .made k ∧ t.key = keyRegsOf k)

/-- CMD (10_state.md section 1): it changes only at an acceptance, when it takes the accepted word, or by reset. -/
def Obligations.CmdChangesAtAcceptanceOnly : Prop :=
  ∀ (ev : Event) (s t : State), takeEvent ev s = .next t → t.cmd ≠ s.cmd →
    ev = .reset ∨
      (ev = .hostWrite 0 t.cmd ∧ s.status.busy = false ∧ s.status.fatal = false ∧ t.status.busy = true ∧
        ∃ i, decode t.cmd = .ok i)

/-! ### Command lifecycle (40_command_lifecycle.md) -/

/-- A step takes the next event (20_memory.md section 4). That the events to come stand in `State.inputs`, and that the CORE has the step
when none is pending, is the model's choice: notes/assumptions/1.md and notes/assumptions/2.md. -/
def Obligations.StepTakesTheNextEvent : Prop :=
  ∀ s : State,
    (∀ ev rest, s.inputs = ev :: rest → step s = takeEvent ev { s with inputs := rest }) ∧
      (s.inputs = [] → step s = takeEvent .completion s)

/-- The selection of the completion step (40_command_lifecycle.md section 3): when the CORE has its turn while BUSY = 1, the step is
exec of the command OPC names. That the CORE has its turn when no event is pending (the two clauses with empty inputs) is the model's
choice: notes/assumptions/2.md. That the turn changes nothing while BUSY = 0 is the model's choice: notes/assumptions/5.md. -/
def Obligations.StepRunsTheLatchedCommand : Prop :=
  ∀ (s : State) (i : Instr),
    (s.status.busy = true → s.latch.opc = opcodeOf i → s.inputs = [] → step s = exec i s) ∧
    (∀ rest, s.status.busy = true → s.latch.opc = opcodeOf i → s.inputs = .completion :: rest →
      step s = exec i { s with inputs := rest }) ∧
    (s.status.busy = false → s.inputs = [] → step s = .next s) ∧
    (∀ rest, s.status.busy = false → s.inputs = .completion :: rest → step s = .next { s with inputs := rest })

/-- A word written to CMD in IDLE is decoded, accepted, and run at the CORE's turn: two steps (40_command_lifecycle.md sections 2, 3).
That the events to come stand in `State.inputs` is the model's choice: notes/assumptions/1.md. -/
def Obligations.IssuedWordIsDecodedThenRun : Prop :=
  ∀ (s : State) (w : Word) (i : Instr) (rest : List Event), s.status.busy = false → s.status.fatal = false →
    s.inputs = .hostWrite 0 w :: .completion :: rest → decode w = .ok i →
    ∃ t, step s = .next t ∧ t.status.busy = true ∧ t.inputs = .completion :: rest ∧ step t = exec i { t with inputs := rest }

/-- R113: what the acceptance of a legal word writes and what it leaves alone; from then on the CORE is RUNNING until the completion
(or a reset). -/
def Obligations.AcceptanceLatchesAndStartsTheCommand : Prop :=
  (∀ (s : State) (w : Word) (i : Instr), s.status.busy = false → s.status.fatal = false → decode w = .ok i →
    ∃ t, takeEvent (.hostWrite 0 w) s = .next t ∧ t.cmd = w ∧
      t.latch = { opc := w.extractLsb' 0 4, op0 := s.arg0, op1 := s.arg1, op2 := s.arg2 } ∧
      t.status = { s.status with busy := true, done := false, err := false, errcode := 0, noinv := false, cmddrop := false } ∧
      t.status.condition = .running ∧ t.result = s.result ∧ t.arg0 = s.arg0 ∧ t.arg1 = s.arg1 ∧ t.arg2 = s.arg2 ∧
      t.key = s.key ∧ t.inputs = s.inputs ∧ t.rdata = s.rdata) ∧
  (∀ (ev : Event) (s t : State), s.status.condition = .running → takeEvent ev s = .next t → ev ≠ .completion → ev ≠ .reset →
    t.status.condition = .running)

/-- R114: the operands are latched at acceptance, and what the operand registers hold afterwards changes nothing but themselves. -/
def Obligations.OperandsAreReadFromTheLatchesOnly : Prop :=
  (∀ (s : State) (w : Word) (i : Instr), s.status.busy = false → s.status.fatal = false → decode w = .ok i →
    (hostWrite 0 w s).latch = { opc := w.extractLsb' 0 4, op0 := s.arg0, op1 := s.arg1, op2 := s.arg2 }) ∧
  (∀ (i : Instr) (s t : State) (a b c : Word), exec i s = .next t →
    exec i { s with arg0 := a, arg1 := b, arg2 := c } = .next { t with arg0 := a, arg1 := b, arg2 := c })

/-- R112: what the rejection of an illegal word writes and what it leaves alone. -/
def Obligations.IllegalWordIsRejected : Prop :=
  ∀ (s : State) (w : Word) (r : IllegalWord), s.status.busy = false → s.status.fatal = false → decode w = .error r →
    ∃ t, takeEvent (.hostWrite 0 w) s = .next t ∧
      t.status = { s.status with done := true, err := true, errcode := 1, noinv := false, cmddrop := false } ∧
      t.status.busy = false ∧ t.cmd = s.cmd ∧ t.result = s.result ∧ t.arg0 = s.arg0 ∧ t.arg1 = s.arg1 ∧
      t.arg2 = s.arg2 ∧ t.key = s.key ∧ t.latch = s.latch ∧ t.draws = s.draws ∧ t.inputs = s.inputs ∧ t.rdata = s.rdata

/-- R191: the STATUS word after an IllegalCommand, and that an illegal word raises nothing while RUNNING (dropped) or DEAD (ignored). -/
def Obligations.IllegalCommandIsReportedInStatus : Prop :=
  ∀ (s : State) (w : Word) (r : IllegalWord), decode w = .error r →
    (s.status.busy = false → s.status.fatal = false →
      hostWrite 0 w s =
        { s with status := { s.status with done := true, err := true, errcode := 1, noinv := false, cmddrop := false } } ∧
      (hostWrite 0 w s).status.busy = false ∧
      (hostWrite 0 w s).status.word.toNat = 0x106 + (if s.status.keyvalid = true then 0x20 else 0)) ∧
    (s.status.busy = true → s.status.fatal = false →
      hostWrite 0 w s = { s with status := { s.status with cmddrop := true } }) ∧
    (s.status.fatal = true → hostWrite 0 w s = s)

/-- R117: a command issue while RUNNING sets CMDDROP and changes nothing else, whatever the word; CMDDROP then stays 1 until the next
acceptance or illegal rejection, or reset. -/
def Obligations.IssueWhileRunningIsDropped : Prop :=
  (∀ (s : State) (w : Word), s.status.busy = true → s.status.fatal = false →
    takeEvent (.hostWrite 0 w) s = .next { s with status := { s.status with cmddrop := true } }) ∧
  (∀ (ev : Event) (s t : State), s.status.cmddrop = true → takeEvent ev s = .next t →
    t.status.cmddrop = true ∨ ev = .reset ∨
      ((∃ w, ev = .hostWrite 0 w) ∧ s.status.busy = false ∧ s.status.fatal = false))

/-- R118: a command issue while DEAD changes nothing. -/
def Obligations.IssueWhileDeadIsIgnored : Prop :=
  ∀ (s : State) (w : Word), s.status.fatal = true → takeEvent (.hostWrite 0 w) s = .next s

/-- Between acceptance and completion (40_command_lifecycle.md section 3): every register but ARG0 to ARG2, and every flag but CMDDROP,
keeps its value. -/
def Obligations.RegistersKeepWhileRunning : Prop :=
  ∀ (ev : Event) (s t : State), s.status.busy = true → s.status.fatal = false → takeEvent ev s = .next t →
    ev ≠ .completion → ev ≠ .reset →
    t.cmd = s.cmd ∧ t.result = s.result ∧ t.key = s.key ∧ t.latch = s.latch ∧
      t.status = { s.status with cmddrop := t.status.cmddrop }

/-- The operations are functions of the latches and the draws (00_scope.md section 6): two states that agree on those give the same
outcome and the same results, whatever RESULT, KEY, the operand registers and the rest hold. -/
def Obligations.ResultsDependOnLatchesAndDrawsOnly : Prop :=
  ∀ (i : Instr) (s s' : State), s.latch = s'.latch → s.draws = s'.draws → s.status.busy = true → s'.status.busy = true →
    s.status.err = false → s'.status.err = false →
    ∃ t t', exec i s = .next t ∧ exec i s' = .next t' ∧ t.status.busy = t'.status.busy ∧ t.status.err = t'.status.err ∧
      (t.status.err = true → t.status.errcode = t'.status.errcode) ∧
      (i ≠ .genkey → t.status.err = false → t.result = t'.result) ∧
      (i = .modinv → t.status.noinv = t'.status.noinv) ∧
      (i = .genkey → t.status.busy = false → t.status.err = false → t.key = t'.key)

/-- Progress (40_command_lifecycle.md section 3): every command but GENKEY completes at the CORE's first turn, for all operands. -/
def Obligations.SevenCommandsCompleteAtTheCoreTurn : Prop :=
  ∀ (s : State) (i : Instr), i ≠ .genkey → s.status.busy = true → s.latch.opc = opcodeOf i →
    ∃ t, takeEvent .completion s = .next t ∧ t.status.busy = false ∧ t.status.done = true

/-- A completion leaves the latches as they were. While BUSY = 0 their value is unspecified (10_state.md section 4): that the model keeps
them is its own choice, notes/assumptions/4.md. -/
def Obligations.CompletionKeepsTheLatches : Prop :=
  ∀ (i : Instr) (s t : State), exec i s = .next t → t.latch = s.latch

/-! ### Number theory unit (41_number_theory.md) -/

/-- ISPRIME: RESULT is 1 exactly for a prime OP0, BUSY and DONE are the only flags written, nothing else changes. -/
def Obligations.IsprimeWritesPrimality : Prop :=
  ∀ s : State, s.status.busy = true →
    ∃ t, exec .isprime s = .next t ∧ (s.latch.op0.toNat.Prime → t.result = 1) ∧ (¬ s.latch.op0.toNat.Prime → t.result = 0) ∧
      t.status = { s.status with busy := false, done := true } ∧ t.key = s.key ∧ CompletionFrame s t

/-- GCD: RESULT is the greatest common divisor of OP0 and OP1, BUSY and DONE are the only flags written, nothing else changes. -/
def Obligations.GcdWritesTheGreatestCommonDivisor : Prop :=
  ∀ s : State, s.status.busy = true →
    ∃ t, exec .gcd s = .next t ∧ t.result.toNat = Nat.gcd s.latch.op0.toNat s.latch.op1.toNat ∧
      t.status = { s.status with busy := false, done := true } ∧ t.key = s.key ∧ CompletionFrame s t

/-- MODINV: RESULT is the inverse, or `0xFFFFFFFF` with NOINV = 1 where there is none; BUSY, DONE and NOINV are the only flags
written, nothing else changes. -/
def Obligations.ModinvWritesTheInverseOrTheSentinel : Prop :=
  ∀ s : State, s.status.busy = true →
    ∃ t v, exec .modinv s = .next t ∧ IsInverseValue s.latch.op0.toNat s.latch.op1.toNat v ∧
      (v = -1 → t.result = 0xFFFFFFFF) ∧ (v ≠ -1 → (t.result.toNat : Int) = v) ∧
      t.status = { s.status with busy := false, done := true, noinv := decide (v = -1) } ∧
      t.key = s.key ∧ CompletionFrame s t

/-- The value of `IsPrime` (R130, last part): 1 exactly when `num` is a prime number. -/
def Obligations.TrialDivisionDecidesPrimality : Prop :=
  ∀ num : Nat, isPrime num = true ↔ num.Prime

/-- R136: the values of `ModInverse`, complete over the operand space; the inverse is unique; the loop's coefficient lies
strictly between `-m` and `m`; a true result is never the sentinel's pattern. -/
def Obligations.ModInverseValues : Prop :=
  (∀ a m : Nat, Nat.gcd a m ≠ 1 → modInverse a m = -1) ∧
  (∀ a m : Nat, 2 ≤ m → Nat.gcd a m = 1 →
    1 ≤ modInverse a m ∧ modInverse a m < m ∧ ((a : Int) * modInverse a m) % m = 1 ∧
      ∀ v : Int, 1 ≤ v → v < m → ((a : Int) * v) % m = 1 → v = modInverse a m) ∧
  (∀ a : Nat, 2 ≤ a → modInverse a 1 = 0) ∧ modInverse 1 1 = 1 ∧ modInverse 0 1 = 1 ∧ modInverse 1 0 = 1 ∧
  (∀ a m : Nat, 2 ≤ m → Nat.gcd a m = 1 → -(m : Int) < inverseLoop (m + 1) a m 0 1 ∧ inverseLoop (m + 1) a m 0 1 < m) ∧
  (∀ a m : Nat, a < 2 ^ 32 → m < 2 ^ 32 → (inverseResult (modInverse a m) = 0xFFFFFFFF ↔ modInverse a m = -1))

/-! ### Modular exponentiation, encryption, decryption (42_modpow.md, 44_encrypt_decrypt.md) -/

/-- MODPOW, ENCRYPT, DECRYPT with a modulus that is not zero: RESULT is the modular power, BUSY and DONE are the only flags written,
nothing else changes. -/
def Obligations.PowerCommandsWriteTheModularPower : Prop :=
  ∀ (i : Instr) (s : State), (i = .modpow ∨ i = .encrypt ∨ i = .decrypt) → s.status.busy = true → s.latch.op2 ≠ 0 →
    ∃ t, exec i s = .next t ∧
      t.result.toNat = powerValue s.latch.op0.toNat s.latch.op1.toNat s.latch.op2.toNat ∧
      t.status = { s.status with busy := false, done := true } ∧ t.key = s.key ∧ CompletionFrame s t

/-- R154: the value of `ModPow`. -/
def Obligations.ModPowValues : Prop :=
  (∀ base exp modulus : Nat, 2 ≤ modulus → modPow base exp modulus = .ok (base ^ exp % modulus)) ∧
  (∀ base exp : Nat, 1 ≤ exp → modPow base exp 1 = .ok 0) ∧ (∀ base : Nat, modPow base 0 1 = .ok 1) ∧
  (∀ base exp modulus v : Nat, modPow base exp modulus = .ok v → v < max modulus 2) ∧
  (∀ base exp modulus v : Nat, modulus < 2 ^ 32 → modPow base exp modulus = .ok v → v < 2 ^ 32)

/-- R192, R152: a zero modulus raises DivideByZero whatever base and exponent are, and RESULT is unchanged; GCD, MODINV and FINDE never
raise it. In a completion NOINV and FATAL are 0 (R28). -/
def Obligations.ZeroModulusRaisesDivideByZero : Prop :=
  (∀ base exp : Nat, modPow base exp 0 = .error .divideByZero) ∧
  (∀ (i : Instr) (s : State), (i = .modpow ∨ i = .encrypt ∨ i = .decrypt) → s.status.busy = true → s.latch.op2 = 0 →
    ∃ t, exec i s = .next t ∧ t.status = { s.status with busy := false, done := true, err := true, errcode := 2 } ∧
      t.result = s.result ∧ t.key = s.key ∧ CompletionFrame s t ∧
      (s.status.noinv = false → s.status.fatal = false →
        t.status.word.toNat =
          0x206 + (if s.status.keyvalid = true then 0x20 else 0) + (if s.status.cmddrop = true then 0x40 else 0))) ∧
  (∀ (i : Instr) (s : State), (i = .gcd ∨ i = .modinv ∨ i = .finde) → s.status.busy = true →
    ∃ t, exec i s = .next t ∧ t.status.err = s.status.err ∧ t.status.errcode = s.status.errcode)

/-- R183: the round trip, for every KeyPair GENKEY can produce and every `m` below `n`; with operands that are no KeyPair it may fail. -/
def Obligations.DecryptUndoesEncrypt : Prop :=
  (∀ (draws : List Draw) (k : KeyPair) (m : Nat), generateKeyPair draws = .made k → m < k.n →
    ∃ c, modPow m k.e k.n = .ok c ∧ modPow c k.d k.n = .ok m) ∧
  (∃ draws k, generateKeyPair draws = .made k ∧ k.p = 2 ∧ k.q = 3 ∧ k.e = 65537) ∧
  (∃ m e d n c : Nat, m < n ∧ modPow m e n = .ok c ∧ modPow c d n ≠ .ok m)

/-- Precondition violations (44_encrypt_decrypt.md, R184): a message not below the modulus is reduced first and raises nothing. -/
def Obligations.MessageIsReducedFirst : Prop :=
  ∀ (i : Instr) (s : State), (i = .encrypt ∨ i = .decrypt) → s.status.busy = true → s.latch.op2 ≠ 0 →
    ∃ t, exec i s = .next t ∧ t.status.err = s.status.err ∧
      ∀ s' : State, s'.status.busy = true → s'.latch.op0.toNat = s.latch.op0.toNat % s.latch.op2.toNat →
        s'.latch.op1 = s.latch.op1 → s'.latch.op2 = s.latch.op2 → ∃ t', exec i s' = .next t' ∧ t'.result = t.result

/-! ### Key-pair generator (43_keygen.md) -/

/-- FINDE: RESULT is the first public exponent for OP0, or 65537, BUSY and DONE are the only flags written, nothing else changes. -/
def Obligations.FindeWritesTheFirstExponent : Prop :=
  ∀ s : State, s.status.busy = true →
    ∃ t, exec .finde s = .next t ∧ IsFirstExponent s.latch.op0.toNat t.result.toNat ∧
      t.status = { s.status with busy := false, done := true } ∧ t.key = s.key ∧ CompletionFrame s t

/-- R162: the prime table, and the ten primes the restriction discards. -/
def Obligations.PrimeTableIsTheFifteenPrimes : Prop :=
  primeTable = [2, 3, 5, 7, 11, 13, 17, 19, 23, 29, 31, 37, 41, 43, 47] ∧
    (List.range' 2 99).filter isPrime =
      [2, 3, 5, 7, 11, 13, 17, 19, 23, 29, 31, 37, 41, 43, 47] ++ [53, 59, 61, 67, 71, 73, 79, 83, 89, 97]

/-- R164: `GenerateKeyPair` as a function of the draws: the deciding draw is the first one that differs from `r0`; after it no draw
is requested, and later values do not matter; 15 raises RngRange where it is met; it waits while every draw equals the first; an
exponent without an inverse is an InvariantViolation. -/
def Obligations.GeneratorOutcomeByDraws : Prop :=
  (∀ (r0 rk : Draw) (n : Nat) (later : List Draw), r0 ≠ 15 → rk ≠ 15 → rk ≠ r0 →
    (∃ k, generateKeyPair (r0 :: (List.replicate n r0 ++ rk :: later)) = .made k ∧
      k.p = candidatePrimes.getD r0.toNat 0 ∧ k.q = candidatePrimes.getD rk.toNat 0 ∧ k.p ≠ k.q ∧ k.n = k.p * k.q ∧
      k.phi = (k.p - 1) * (k.q - 1) ∧ k.e = findValidE k.phi ∧ (k.d : Int) = modInverse k.e k.phi ∧
      k.n ≤ 2021 ∧ k.phi ≤ 1932 ∧ k.e ≤ 65537 ∧ k.d < k.phi) ∧
    ∀ s : State, s.draws = r0 :: (List.replicate n r0 ++ [rk]) → rndReq s = false) ∧
  (∀ later : List Draw, generateKeyPair (15 :: later) = .failed .rngRange) ∧
  (∀ s : State, s.draws = [15] → rndReq s = false) ∧
  (∀ (r0 : Draw) (n : Nat) (later : List Draw), r0 ≠ 15 →
    generateKeyPair (r0 :: (List.replicate n r0 ++ 15 :: later)) = .failed .rngRange ∧
    ∀ s : State, s.draws = r0 :: (List.replicate n r0 ++ [15]) → rndReq s = false) ∧
  (∀ (r0 : Draw) (n : Nat), r0 ≠ 15 → generateKeyPair (List.replicate n r0) = .waiting) ∧
  (∀ p q : Nat, modInverse (findValidE ((p - 1) * (q - 1))) ((p - 1) * (q - 1)) = -1 → deriveKey p q = .failed .invariantViolation)

/-- GENKEY with draws that decide: the six KEY registers hold the KeyPair of the two deciding draws, KEYVALID = 1, RESULT unchanged; BUSY,
DONE and KEYVALID are the only flags written, nothing else changes. -/
def Obligations.GenkeyCommitsTheKeyPair : Prop :=
  ∀ (s : State) (r0 rk : Draw) (n : Nat), s.status.busy = true → s.draws = r0 :: (List.replicate n r0 ++ [rk]) →
    r0 ≠ 15 → rk ≠ 15 → rk ≠ r0 →
    ∃ t, exec .genkey s = .next t ∧ t.key.p.toNat = candidatePrimes.getD r0.toNat 0 ∧
      t.key.q.toNat = candidatePrimes.getD rk.toNat 0 ∧ KeyPairValid t.key ∧
      IsFirstExponent t.key.phi.toNat t.key.e.toNat ∧ t.result = s.result ∧
      t.status = { s.status with busy := false, done := true, keyvalid := true } ∧ CompletionFrame s t

/-- RngRange (60_exceptions.md section 1): a consumed draw of 15, the last one consumed, raises RngRange; the KeyPair is untouched, and
the next GENKEY starts afresh. -/
def Obligations.DrawOutsideTheTableRaisesRngRange : Prop :=
  ∀ (s : State) (ds : List Draw), s.status.busy = true → s.draws = ds ++ [15] →
    (∀ r ∈ ds, r ≠ 15 ∧ ds.head? = some r) →
    ∃ t, exec .genkey s = .next t ∧ t.status = { s.status with busy := false, done := true, err := true, errcode := 3 } ∧
      t.result = s.result ∧ t.key = s.key ∧ CompletionFrame s t ∧
      (s.status.noinv = false → s.status.fatal = false →
        t.status.word.toNat =
          0x306 + (if s.status.keyvalid = true then 0x20 else 0) + (if s.status.cmddrop = true then 0x40 else 0)) ∧
      (s.status.fatal = false → ∃ u, takeEvent (.hostWrite 0 (encode .genkey)) t = .next u ∧
        u.status.busy = true ∧ u.status.err = false ∧ u.draws = [] ∧ u.key = s.key)

/-- GENKEY's wait (43_keygen.md section 3, 70_reset_and_hazards.md section 3): with no draw, or with draws that all repeat one index of the
table, it does not complete and nothing changes; the CORE requests a draw. -/
def Obligations.GenkeyWaitsForADecidingDraw : Prop :=
  ∀ (s : State) (r0 : Draw) (n : Nat), s.status.busy = true → s.latch.opc = opcodeOf .genkey → r0 ≠ 15 →
    s.draws = List.replicate n r0 → exec .genkey s = .next s ∧ rndReq s = true

/-- GENKEY completes at the CORE's turn exactly when the first draw is 15 or a later draw differs from it. -/
def Obligations.GenkeyCompletesExactlyWhenTheDrawsDecide : Prop :=
  ∀ s : State, s.status.busy = true → s.latch.opc = opcodeOf .genkey →
    ∃ t, takeEvent .completion s = .next t ∧
      (t.status.busy = false ↔ ∃ r0 rest, s.draws = r0 :: rest ∧ (r0 = 15 ∨ ∃ r ∈ rest, r ≠ r0))

/-- The random-source port (20_memory.md section 5): an offered draw is consumed exactly while the CORE requests one, which only a
GENKEY in progress does, and changes nothing else. That a draw offered while `rnd_req` = 0 changes nothing is the model's inference from
that section: notes/assumptions/6.md. No draw outlives its command (10_state.md section 4, 20_memory.md section 4, 43_keygen.md section
3): every acceptance starts with none, and every completion leaves none; that the consumed draws are a list in State is the model's
choice: notes/assumptions/7.md. -/
def Obligations.DrawIsConsumedOnlyOnRequest : Prop :=
  (∀ (s : State) (r : Draw),
    (rndReq s = true → s.status.busy = true ∧ s.latch.opc = opcodeOf .genkey ∧
      takeEvent (.draw r) s = .next { s with draws := s.draws ++ [r] }) ∧
    (rndReq s = false → takeEvent (.draw r) s = .next s)) ∧
  (∀ (s : State) (w : Word) (i : Instr), s.status.busy = false → s.status.fatal = false → decode w = .ok i →
    ∃ t, takeEvent (.hostWrite 0 w) s = .next t ∧ t.draws = [] ∧ (i = .genkey → rndReq t = true)) ∧
  (∀ (i : Instr) (s t : State), s.status.busy = true → exec i s = .next t → t.status.busy = false → t.draws = [])

/-- R168 (a), (c), (e): every KeyPair GENKEY can produce. -/
def Obligations.GeneratedKeyPairsAreRsaKeys : Prop :=
  ∀ (draws : List Draw) (k : KeyPair), generateKeyPair draws = .made k →
    k.p ≠ k.q ∧ k.p.Prime ∧ k.q.Prime ∧ k.p ∈ candidatePrimes ∧ k.q ∈ candidatePrimes ∧ k.n = k.p * k.q ∧
    k.phi = (k.p - 1) * (k.q - 1) ∧ 6 ≤ k.n ∧ k.n ≤ 2021 ∧ 2 ≤ k.phi ∧ k.phi ≤ 1932 ∧
    k.e ∈ [3, 5, 7, 11, 65537] ∧ (k.e = 65537 ↔ k.n = 6) ∧ Nat.gcd k.e k.phi = 1 ∧ (k.e * k.d) % k.phi = 1 ∧
    1 ≤ k.d ∧ k.d < k.phi ∧ k.d ≤ 1325

/-- R168 (d): no sequence of draws makes GENKEY raise InvariantViolation. -/
def Obligations.InvariantViolationIsNeverRaised : Prop :=
  ∀ draws : List Draw, generateKeyPair draws ≠ .failed .invariantViolation

/-- R168 (b): how often each public exponent occurs among the 105 unordered pairs of the table. -/
def Obligations.ExponentCountsOverThePairs : Prop :=
  let pairs := (List.range 15).flatMap fun a => ((List.range 15).filter (fun b => decide (a < b))).map fun b =>
    findValidE ((candidatePrimes.getD a 0 - 1) * (candidatePrimes.getD b 0 - 1))
  pairs.length = 105 ∧ pairs.count 3 = 35 ∧ pairs.count 5 = 45 ∧ pairs.count 7 = 20 ∧ pairs.count 11 = 4 ∧
    pairs.count 65537 = 1

/-! ### Errors (60_exceptions.md) -/

/-- R195: what an error completion writes, and that it writes nothing else; NOINV is 0 already, and no partial value is kept. -/
def Obligations.ErrorCompletionWritesStatusOnly : Prop :=
  (∀ s : State, StatusInv s → s.status.busy = true → s.status.noinv = false) ∧
  ∀ (e : ErrorKind) (s : State), e ≠ .illegalCommand →
    (raiseError e s).status =
      { s.status with busy := false, done := true, err := true,
                      errcode := (match e with | .illegalCommand => 1 | .divideByZero => 2 | .rngRange => 3 | .invariantViolation => 4),
                      fatal := s.status.fatal || e == .invariantViolation } ∧
    (raiseError e s).result = s.result ∧ (raiseError e s).key = s.key ∧ (raiseError e s).draws = [] ∧
    CompletionFrame s (raiseError e s)

/-- The fatal error (60_exceptions.md section 1): after an InvariantViolation every command issue is ignored, the operand registers still
take writes, every register still reads, and reset leaves the condition. -/
def Obligations.FatalErrorLastsUntilReset : Prop :=
  ∀ (s t : State), t = raiseError .invariantViolation s →
    t.status.condition = .dead ∧
    (∀ w, takeEvent (.hostWrite 0 w) t = .next t) ∧
    (∀ v, takeEvent (.hostWrite 2 v) t = .next { t with arg0 := v }) ∧
    (∀ v, takeEvent (.hostWrite 3 v) t = .next { t with arg1 := v }) ∧
    (∀ v, takeEvent (.hostWrite 4 v) t = .next { t with arg2 := v }) ∧
    (∀ i, 2 ≤ i.toNat → hostRead i t = hostRead i s) ∧
    (∃ u, takeEvent .reset t = .next u ∧ u.status.condition = .idle) ∧
    (∀ ev u, ev ≠ .reset → takeEvent ev t = .next u → u.status.fatal = true)

/-! ### Reset and pins (70_reset_and_hazards.md, 20_memory.md) -/

/-- The reset state (70_reset_and_hazards.md section 1): every slot reads zero, the CORE is IDLE and requests no draw. -/
def Obligations.ResetStateReadsZero : Prop :=
  AllSlotsReadZero State.reset ∧ State.reset.status.condition = .idle ∧ rndReq State.reset = false

/-- R222: reset in any state, a command in progress or not, gives the reset state: no completion, no result, the draws lost. It is the
only event that clears FATAL, KEYVALID or a KeyPair (any other leaves the KEY registers, or commits a new KeyPair), the only one besides
the completion that ends a command, and the only one that ends a GENKEY to which no draw comes. (The latches are left out: R221 leaves
them unspecified.) -/
def Obligations.ResetAbandonsEverything : Prop :=
  (∀ s : State, ∃ t, takeEvent .reset s = .next t ∧ AllSlotsReadZero t ∧ t.status.condition = .idle ∧
    t.status.fatal = false ∧ t.status.keyvalid = false ∧ t.draws = [] ∧ rndReq t = false) ∧
  (∀ (ev : Event) (s t : State), ev ≠ .reset → takeEvent ev s = .next t →
    (s.status.fatal = true → t.status.fatal = true) ∧ (s.status.keyvalid = true → t.status.keyvalid = true) ∧
      (t.key = s.key ∨ ev = .completion ∧ ∃ k, generateKeyPair s.draws = .made k ∧ t.key = keyRegsOf k) ∧
      (s.status.busy = true → t.status.busy = false → ev = .completion) ∧
      (rndReq s = true → (∀ r, ev ≠ .draw r) → t.status.busy = true ∧ rndReq t = true))

/-- R224: after reset a command may be issued at once, and the seven computational commands run on the operands zero that reset leaves. -/
def Obligations.CommandsOnResetOperands : Prop :=
  let run := fun i => exec i (hostWrite 0 (encode i) State.reset)
  (∃ t, run .isprime = .next t ∧ t.result = 0 ∧ t.status.word = 0x00000002) ∧
  (∃ t, run .gcd = .next t ∧ t.result = 0 ∧ t.status.word = 0x00000002) ∧
  (∃ t, run .modinv = .next t ∧ t.result = 0xFFFFFFFF ∧ t.status.word = 0x0000000A) ∧
  (∃ t, run .modpow = .next t ∧ t.result = 0 ∧ t.status.word = 0x00000206) ∧
  (∃ t, run .encrypt = .next t ∧ t.result = 0 ∧ t.status.word = 0x00000206) ∧
  (∃ t, run .decrypt = .next t ∧ t.result = 0 ∧ t.status.word = 0x00000206) ∧
  (∃ t, run .finde = .next t ∧ t.result = 65537 ∧ t.status.word = 0x00000002)

/-- The reset pin (70_reset_and_hazards.md section 1): at an edge with `rst = 1` the CORE takes the reset state whatever else happens. -/
def Obligations.ResetPinOverridesTheEdge : Prop :=
  ∀ (p : Pins) (finishes : Bool) (s : State), p.rst = true →
    ∃ t, clockEdge p finishes s = .next t ∧ AllSlotsReadZero t ∧ t.status.condition = .idle ∧ rndReq t = false

/-- Every clock edge with `rst` = 0 (20_memory.md section 5, 90_conflicts.md C4). The host access of the cycle, a write to any slot, a
read or none, takes its effect; the completion due at the edge, of any command, comes after it, so a CMD write is dropped first; a read
sees the state at the start of the cycle. While `rnd_req` = 1 a draw is consumed exactly if `rnd_valid` = 1, with an access or without;
that the command does not also complete at the edge of its deciding draw, and where the draw stands, is the model's choice:
notes/assumptions/15.md. With no draw consumed and no completion due, the edge is the access alone. -/
def Obligations.HostAccessPrecedesTheCompletion : Prop :=
  ∀ (p : Pins) (s u : State), p.rst = false →
    u = (if p.hSel = true then (if p.hWe = true then hostWrite p.hAddr p.hWdata s else { s with rdata := hostRead p.hAddr s })
      else s) →
    (∀ i : Instr, s.status.busy = true → s.latch.opc = opcodeOf i → rndReq s = false →
      clockEdge p true s = exec i u ∧
      (p.hSel = true → p.hWe = true → p.hAddr = 0 → s.status.fatal = false →
        clockEdge p true s = exec i { s with status := { s.status with cmddrop := true } })) ∧
    (p.hSel = true → p.hWe = false → hRdata p s = some (hostRead p.hAddr s)) ∧
    (∀ finishes : Bool, rndReq s = true → p.rndValid = true →
      clockEdge p finishes s = .next { u with draws := s.draws ++ [p.rndIdx] }) ∧
    (∀ finishes : Bool, rndReq s = true → p.rndValid = false → clockEdge p finishes s = .next u) ∧
    (rndReq s = false → clockEdge p false s = .next u) ∧
    (∀ finishes : Bool, s.status.busy = false → clockEdge p finishes s = .next u)

/-! ### Invariants of every step -/

/-- R29 (a) to (e), with the invariant of the latches: every step keeps them. -/
def Obligations.StepKeepsTheStatusInvariants : Prop :=
  ∀ s t : State, StatusInv s → step s = .next t → StatusInv t

/-- R29: the reset state meets the invariants. -/
def Obligations.ResetMeetsTheInvariants : Prop :=
  StatusInv State.reset ∧ KeyInv State.reset ∧ State.reset.status.fatal = false

/-- R30, last sentence: every step keeps the KEY registers a valid KeyPair while KEYVALID = 1. -/
def Obligations.StepKeepsTheKeyPairValid : Prop :=
  ∀ s t : State, KeyInv s → step s = .next t → KeyInv t

/-- The DEAD condition is never entered: no step sets FATAL (R194, last sentence). -/
def Obligations.StepNeverSetsFatal : Prop :=
  ∀ s t : State, s.status.fatal = false → step s = .next t → t.status.fatal = false

/-- R29 (a), second part: an issue in IDLE leaves exactly one of BUSY and DONE set, and every event but reset keeps it so. -/
def Obligations.ExactlyOneOfBusyAndDone : Prop :=
  (∀ (s : State) (w : Word), s.status.busy = false → s.status.fatal = false →
    (hostWrite 0 w s).status.busy ≠ (hostWrite 0 w s).status.done) ∧
  (∀ (ev : Event) (s t : State), s.status.busy ≠ s.status.done → ev ≠ .reset → takeEvent ev s = .next t →
    t.status.busy ≠ t.status.done)

/-- R29 (d): with FATAL = 1 STATUS reads one of four words, and does not change until reset. -/
def Obligations.FatalStatusIsFixed : Prop :=
  ∀ s : State, StatusInv s → s.status.fatal = true →
    s.status.word.toNat =
      0x416 + (if s.status.keyvalid = true then 0x20 else 0) + (if s.status.cmddrop = true then 0x40 else 0) ∧
    ∀ ev t, takeEvent ev s = .next t → ev ≠ .reset → t.status = s.status

/-- No run stops: from a state whose latch holds a legal opcode, every step answers a next state. That a step with no pending event is
the CORE's turn is the model's choice: notes/assumptions/2.md. -/
def Obligations.StepNeverStops : Prop :=
  ∀ s : State, LatchedLegal s → ∃ t, step s = .next t
end

