-- ==== Sys2Proof/Laws/Arithmetic.lean ====
section
/-! SUPPORT. What each loop of the operation rules computes, once: the Euclid loop (R132), trial division (R130, R138), the power
loop (R150), the extended-Euclid loop (R134) and the exponent scan (R160). -/
namespace Sys2Proof.Machine

/-- The Euclid loop, given fuel for its measure `b`, ends with the greatest common divisor. -/
theorem euclidLoop_eq_gcd : ∀ fuel a b, b ≤ fuel → euclidLoop fuel a b = Nat.gcd a b
  | 0, a, b, h => by
    obtain rfl : b = 0 := by omega
    simp [euclidLoop]
  | fuel + 1, a, b, h => by
    rw [euclidLoop]
    split
    · rename_i hb
      have hlt : a % b < b := Nat.mod_lt a (by omega)
      rw [euclidLoop_eq_gcd fuel b (a % b) (by omega), Nat.gcd_comm b, ← Nat.gcd_rec, Nat.gcd_comm]
    · rename_i hb
      obtain rfl : b = 0 := by omega
      simp

/-- Trial division from `i`, given fuel for its measure, finds no divisor exactly when no candidate of `i`'s parity up to the square
root divides. -/
theorem trialDivide_iff (num : Nat) : ∀ fuel i, num < i + 2 * fuel →
    (trialDivide num fuel i = true ↔ ∀ k, i ≤ k → k % 2 = i % 2 → k * k ≤ num → num % k ≠ 0)
  | 0, i, h => by
    simp only [trialDivide, true_iff]
    intro k hk _ hsq
    nlinarith
  | fuel + 1, i, h => by
    rw [trialDivide]
    split
    · rename_i hsq
      split
      · rename_i hdiv
        simp only [Bool.false_eq_true, false_iff, not_forall]
        exact ⟨i, le_refl i, rfl, hsq, by simpa using hdiv⟩
      · rename_i hdiv
        rw [trialDivide_iff num fuel (i + 2) (by omega)]
        constructor
        · intro hall k hk hpar hk2
          by_cases hki : k = i
          · exact hki ▸ hdiv
          · exact hall k (by omega) (by omega) hk2
        · intro hall k hk hpar hk2
          exact hall k (by omega) (by omega) hk2
    · rename_i hsq
      simp only [true_iff]
      intro k hk _ hk2
      nlinarith

/-- The power loop, given fuel for its measure `exp`, keeps `acc * base ^ exp` modulo `modulus`. -/
theorem powLoop_modEq (modulus : Nat) : ∀ fuel acc base exp, exp ≤ fuel →
    powLoop modulus fuel acc base exp ≡ acc * base ^ exp [MOD modulus]
  | 0, acc, base, exp, h => by
    obtain rfl : exp = 0 := by omega
    simp [powLoop, Nat.ModEq.refl]
  | fuel + 1, acc, base, exp, h => by
    rw [powLoop]
    split
    · rename_i hpos
      refine (powLoop_modEq modulus fuel _ _ _ (by omega)).trans ?_
      have hsq : (base * base % modulus) ^ (exp / 2) ≡ (base * base) ^ (exp / 2) [MOD modulus] :=
        (Nat.mod_modEq _ _).pow _
      have hexp : (base * base) ^ (exp / 2) = base ^ (2 * (exp / 2)) := by rw [pow_mul, pow_two]
      split
      · rename_i hodd
        refine ((Nat.mod_modEq _ _).mul hsq).trans ?_
        rw [hexp, mul_assoc, ← pow_succ', show 2 * (exp / 2) + 1 = exp by omega]
      · rename_i heven
        refine ((Nat.ModEq.refl acc).mul hsq).trans ?_
        rw [hexp, show 2 * (exp / 2) = exp by omega]
    · rename_i hpos
      obtain rfl : exp = 0 := by omega
      simp [Nat.ModEq.refl]

/-- The result of the power loop is reduced as soon as the exponent has a bit set, or the accumulator was. -/
theorem powLoop_lt (modulus : Nat) (hm : 0 < modulus) : ∀ fuel acc base exp, exp ≤ fuel → (0 < exp ∨ acc < modulus) →
    powLoop modulus fuel acc base exp < modulus
  | 0, acc, base, exp, h, hor => by
    simpa [powLoop] using hor.resolve_left (by omega)
  | fuel + 1, acc, base, exp, h, hor => by
    rw [powLoop]
    split
    · rename_i hpos
      refine powLoop_lt modulus hm fuel _ _ _ (by omega) ?_
      split
      · exact .inr (Nat.mod_lt _ hm)
      · exact .inl (by omega)
    · rename_i hpos
      exact hor.resolve_left hpos

/-- The extended-Euclid loop (R134, facts (i) to (iii)): from coprime remainders with coefficients of opposite signs `σ`, the final
coefficient `r` satisfies `r * a0 ≡ 1 (mod m0)`, and it is the entry's or at most half of `m0` in magnitude (R136's bound). -/
theorem inverseLoop_spec (a0 m0 : Int) : ∀ (fuel a m : Nat) (x0 x1 σ : Int), m < fuel → 1 ≤ a → Nat.gcd a m = 1 →
    (σ = 1 ∨ σ = -1) → 0 ≤ σ * x1 → σ * x0 ≤ 0 → σ * (x1 * m - x0 * a) = m0 →
    m0 ∣ x1 * a0 - a → m0 ∣ x0 * a0 - m →
    m0 ∣ inverseLoop fuel a m x0 x1 * a0 - 1 ∧
      ((inverseLoop fuel a m x0 x1 = x1 ∧ a = 1) ∨ 2 * |inverseLoop fuel a m x0 x1| ≤ m0)
  | 0, _, _, _, _, _, h, _, _, _, _, _, _, _, _ => by omega
  | fuel + 1, a, m, x0, x1, σ, h, ha, hg, hσ, h1, h0, hdet, hd1, hd0 => by
    rw [inverseLoop]
    split
    · rename_i ha1
      have hm : 0 < m := by
        rcases Nat.eq_zero_or_pos m with rfl | hm
        · simp at hg; omega
        · exact hm
      have hlt : a % m < m := Nat.mod_lt a hm
      have hdm : (a : Int) = m * (a / m : Nat) + (a % m : Nat) := by exact_mod_cast (Nat.div_add_mod a m).symm
      have hq : (0 : Int) ≤ ((a / m : Nat) : Int) := Int.natCast_nonneg _
      have ih := inverseLoop_spec a0 m0 fuel m (a % m) (x1 - (a / m : Nat) * x0) x0 (-σ) (by omega) hm
        (by rw [Nat.gcd_comm, ← Nat.gcd_rec, Nat.gcd_comm]; exact hg) (by omega) (by linarith)
        (by nlinarith [mul_nonneg hq (neg_nonneg.mpr h0)])
        (by
          have : (a % m : Nat) = (a : Int) - m * (a / m : Nat) := by linarith
          rw [this, ← hdet]; ring)
        hd0
        (by
          have he : (x1 - (a / m : Nat) * x0) * a0 - (a % m : Nat) = (x1 * a0 - a) - (a / m : Nat) * (x0 * a0 - m) := by
            linear_combination hdm
          rw [he]
          exact dvd_sub hd1 (Dvd.dvd.mul_left hd0 _))
      refine ⟨ih.1, .inr ?_⟩
      rcases ih.2 with ⟨hr, hm1⟩ | hb
      · rw [hr]
        subst hm1
        have ha2 : (2 : Int) ≤ a := by exact_mod_cast ha1
        rcases hσ with rfl | rfl
        · rw [abs_of_nonpos (by linarith)]
          push_cast at hdet
          nlinarith
        · rw [abs_of_nonneg (by linarith)]
          push_cast at hdet
          nlinarith
      · exact hb
    · rename_i ha1
      obtain rfl : a = 1 := by omega
      exact ⟨by simpa using hd1, .inl ⟨rfl, rfl⟩⟩

/-- The exponent scan from `e`, given fuel for its measure: the first candidate of `e`'s parity below `phi` and coprime to it, or the
fallback where there is none. -/
theorem exponentScan_spec (phi : Nat) : ∀ fuel e, phi ≤ e + 2 * fuel →
    (e ≤ exponentScan phi fuel e ∧ exponentScan phi fuel e < phi ∧ exponentScan phi fuel e % 2 = e % 2 ∧
        Nat.gcd (exponentScan phi fuel e) phi = 1 ∧
        ∀ x, e ≤ x → x < exponentScan phi fuel e → x % 2 = e % 2 → Nat.gcd x phi ≠ 1) ∨
      (exponentScan phi fuel e = Config.eFallback ∧ ∀ x, e ≤ x → x < phi → x % 2 = e % 2 → Nat.gcd x phi ≠ 1)
  | 0, e, h => .inr ⟨rfl, fun x hx hlt => by omega⟩
  | fuel + 1, e, h => by
    rw [exponentScan]
    split
    · rename_i hlt
      have hgcd : euclidGcd e phi = Nat.gcd e phi := euclidLoop_eq_gcd _ _ _ (le_refl _)
      split
      · rename_i hg
        exact .inl ⟨le_refl e, hlt, rfl, hgcd ▸ hg, fun x hx hxe => by omega⟩
      · rename_i hg
        have hne : Nat.gcd e phi ≠ 1 := hgcd ▸ hg
        rcases exponentScan_spec phi fuel (e + Config.eStep) (by simp only [Config.eStep]; omega) with
          ⟨h1, h2, h3, h4, h5⟩ | ⟨h1, h2⟩
        · simp only [Config.eStep] at *
          refine .inl ⟨by omega, h2, by omega, h4, fun x hx hxr hpar => ?_⟩
          by_cases hxe : x = e
          · exact hxe ▸ hne
          · exact h5 x (by omega) hxr (by omega)
        · simp only [Config.eStep] at *
          refine .inr ⟨h1, fun x hx hxp hpar => ?_⟩
          by_cases hxe : x = e
          · exact hxe ▸ hne
          · exact h2 x (by omega) hxp (by omega)
    · rename_i hlt
      exact .inr ⟨rfl, fun x hx hxp => by omega⟩

end Sys2Proof.Machine
end

