-- ==== Sys2Proof/Laws/Flags.lean ====
section
/-! SUPPORT. What each event of 10_state.md R28 does to each flag of STATUS, and the bits of the STATUS word (R27). -/
namespace Sys2Proof.Machine

variable (f : Status)

/-! `dropped` -/
@[simp] theorem dropped_busy : f.dropped.busy = f.busy := rfl
@[simp] theorem dropped_done : f.dropped.done = f.done := rfl
@[simp] theorem dropped_err : f.dropped.err = f.err := rfl
@[simp] theorem dropped_noinv : f.dropped.noinv = f.noinv := rfl
@[simp] theorem dropped_fatal : f.dropped.fatal = f.fatal := rfl
@[simp] theorem dropped_keyvalid : f.dropped.keyvalid = f.keyvalid := rfl
@[simp] theorem dropped_cmddrop : f.dropped.cmddrop = true := rfl
@[simp] theorem dropped_errcode : f.dropped.errcode = f.errcode := rfl

/-! `rejected` -/
@[simp] theorem rejected_busy : f.rejected.busy = f.busy := rfl
@[simp] theorem rejected_done : f.rejected.done = true := rfl
@[simp] theorem rejected_err : f.rejected.err = true := rfl
@[simp] theorem rejected_noinv : f.rejected.noinv = false := rfl
@[simp] theorem rejected_fatal : f.rejected.fatal = f.fatal := rfl
@[simp] theorem rejected_keyvalid : f.rejected.keyvalid = f.keyvalid := rfl
@[simp] theorem rejected_cmddrop : f.rejected.cmddrop = false := rfl
@[simp] theorem rejected_errcode : f.rejected.errcode = 1 := rfl

/-! `accepted` -/
@[simp] theorem accepted_busy : f.accepted.busy = true := rfl
@[simp] theorem accepted_done : f.accepted.done = false := rfl
@[simp] theorem accepted_err : f.accepted.err = false := rfl
@[simp] theorem accepted_noinv : f.accepted.noinv = false := rfl
@[simp] theorem accepted_fatal : f.accepted.fatal = f.fatal := rfl
@[simp] theorem accepted_keyvalid : f.accepted.keyvalid = f.keyvalid := rfl
@[simp] theorem accepted_cmddrop : f.accepted.cmddrop = false := rfl
@[simp] theorem accepted_errcode : f.accepted.errcode = 0 := rfl

/-! `completed` -/
@[simp] theorem completed_busy : f.completed.busy = false := rfl
@[simp] theorem completed_done : f.completed.done = true := rfl
@[simp] theorem completed_err : f.completed.err = f.err := rfl
@[simp] theorem completed_noinv : f.completed.noinv = f.noinv := rfl
@[simp] theorem completed_fatal : f.completed.fatal = f.fatal := rfl
@[simp] theorem completed_keyvalid : f.completed.keyvalid = f.keyvalid := rfl
@[simp] theorem completed_cmddrop : f.completed.cmddrop = f.cmddrop := rfl
@[simp] theorem completed_errcode : f.completed.errcode = f.errcode := rfl

/-! `completedInverse` -/
@[simp] theorem completedInverse_busy (b : Bool) : (f.completedInverse b).busy = false := rfl
@[simp] theorem completedInverse_done (b : Bool) : (f.completedInverse b).done = true := rfl
@[simp] theorem completedInverse_err (b : Bool) : (f.completedInverse b).err = f.err := rfl
@[simp] theorem completedInverse_noinv (b : Bool) : (f.completedInverse b).noinv = b := rfl
@[simp] theorem completedInverse_fatal (b : Bool) : (f.completedInverse b).fatal = f.fatal := rfl
@[simp] theorem completedInverse_keyvalid (b : Bool) : (f.completedInverse b).keyvalid = f.keyvalid := rfl
@[simp] theorem completedInverse_cmddrop (b : Bool) : (f.completedInverse b).cmddrop = f.cmddrop := rfl
@[simp] theorem completedInverse_errcode (b : Bool) : (f.completedInverse b).errcode = f.errcode := rfl

/-! `completedKey` -/
@[simp] theorem completedKey_busy : f.completedKey.busy = false := rfl
@[simp] theorem completedKey_done : f.completedKey.done = true := rfl
@[simp] theorem completedKey_err : f.completedKey.err = f.err := rfl
@[simp] theorem completedKey_noinv : f.completedKey.noinv = f.noinv := rfl
@[simp] theorem completedKey_fatal : f.completedKey.fatal = f.fatal := rfl
@[simp] theorem completedKey_keyvalid : f.completedKey.keyvalid = true := rfl
@[simp] theorem completedKey_cmddrop : f.completedKey.cmddrop = f.cmddrop := rfl
@[simp] theorem completedKey_errcode : f.completedKey.errcode = f.errcode := rfl

/-! `failed` -/
@[simp] theorem failed_busy (e : ErrorKind) : (f.failed e).busy = false := rfl
@[simp] theorem failed_done (e : ErrorKind) : (f.failed e).done = true := rfl
@[simp] theorem failed_err (e : ErrorKind) : (f.failed e).err = true := rfl
@[simp] theorem failed_noinv (e : ErrorKind) : (f.failed e).noinv = f.noinv := rfl
@[simp] theorem failed_fatal (e : ErrorKind) : (f.failed e).fatal = (f.fatal || e == .invariantViolation) := rfl
@[simp] theorem failed_keyvalid (e : ErrorKind) : (f.failed e).keyvalid = f.keyvalid := rfl
@[simp] theorem failed_cmddrop (e : ErrorKind) : (f.failed e).cmddrop = f.cmddrop := rfl
@[simp] theorem failed_errcode (e : ErrorKind) : (f.failed e).errcode = errorCode e := rfl

end Sys2Proof.Machine
end

