-- ==== Sys2Proof/Laws/State.lean ====
section
/-! SUPPORT. What each setter of State does to each field: one lemma per field per setter, true by rfl, in the simp set, so that no proof
unfolds a record update. -/
namespace Sys2Proof.Machine

variable (s : State)

/-! `setCmd` -/
@[simp] theorem setCmd_cmd (w : Word) : (s.setCmd w).cmd = w := rfl
@[simp] theorem setCmd_status (w : Word) : (s.setCmd w).status = s.status := rfl
@[simp] theorem setCmd_arg0 (w : Word) : (s.setCmd w).arg0 = s.arg0 := rfl
@[simp] theorem setCmd_arg1 (w : Word) : (s.setCmd w).arg1 = s.arg1 := rfl
@[simp] theorem setCmd_arg2 (w : Word) : (s.setCmd w).arg2 = s.arg2 := rfl
@[simp] theorem setCmd_result (w : Word) : (s.setCmd w).result = s.result := rfl
@[simp] theorem setCmd_key (w : Word) : (s.setCmd w).key = s.key := rfl
@[simp] theorem setCmd_latch (w : Word) : (s.setCmd w).latch = s.latch := rfl
@[simp] theorem setCmd_draws (w : Word) : (s.setCmd w).draws = s.draws := rfl
@[simp] theorem setCmd_inputs (w : Word) : (s.setCmd w).inputs = s.inputs := rfl
@[simp] theorem setCmd_rdata (w : Word) : (s.setCmd w).rdata = s.rdata := rfl

/-! `setStatus` -/
@[simp] theorem setStatus_cmd (f : Status) : (s.setStatus f).cmd = s.cmd := rfl
@[simp] theorem setStatus_status (f : Status) : (s.setStatus f).status = f := rfl
@[simp] theorem setStatus_arg0 (f : Status) : (s.setStatus f).arg0 = s.arg0 := rfl
@[simp] theorem setStatus_arg1 (f : Status) : (s.setStatus f).arg1 = s.arg1 := rfl
@[simp] theorem setStatus_arg2 (f : Status) : (s.setStatus f).arg2 = s.arg2 := rfl
@[simp] theorem setStatus_result (f : Status) : (s.setStatus f).result = s.result := rfl
@[simp] theorem setStatus_key (f : Status) : (s.setStatus f).key = s.key := rfl
@[simp] theorem setStatus_latch (f : Status) : (s.setStatus f).latch = s.latch := rfl
@[simp] theorem setStatus_draws (f : Status) : (s.setStatus f).draws = s.draws := rfl
@[simp] theorem setStatus_inputs (f : Status) : (s.setStatus f).inputs = s.inputs := rfl
@[simp] theorem setStatus_rdata (f : Status) : (s.setStatus f).rdata = s.rdata := rfl

/-! `setArg0` -/
@[simp] theorem setArg0_cmd (w : Word) : (s.setArg0 w).cmd = s.cmd := rfl
@[simp] theorem setArg0_status (w : Word) : (s.setArg0 w).status = s.status := rfl
@[simp] theorem setArg0_arg0 (w : Word) : (s.setArg0 w).arg0 = w := rfl
@[simp] theorem setArg0_arg1 (w : Word) : (s.setArg0 w).arg1 = s.arg1 := rfl
@[simp] theorem setArg0_arg2 (w : Word) : (s.setArg0 w).arg2 = s.arg2 := rfl
@[simp] theorem setArg0_result (w : Word) : (s.setArg0 w).result = s.result := rfl
@[simp] theorem setArg0_key (w : Word) : (s.setArg0 w).key = s.key := rfl
@[simp] theorem setArg0_latch (w : Word) : (s.setArg0 w).latch = s.latch := rfl
@[simp] theorem setArg0_draws (w : Word) : (s.setArg0 w).draws = s.draws := rfl
@[simp] theorem setArg0_inputs (w : Word) : (s.setArg0 w).inputs = s.inputs := rfl
@[simp] theorem setArg0_rdata (w : Word) : (s.setArg0 w).rdata = s.rdata := rfl

/-! `setArg1` -/
@[simp] theorem setArg1_cmd (w : Word) : (s.setArg1 w).cmd = s.cmd := rfl
@[simp] theorem setArg1_status (w : Word) : (s.setArg1 w).status = s.status := rfl
@[simp] theorem setArg1_arg0 (w : Word) : (s.setArg1 w).arg0 = s.arg0 := rfl
@[simp] theorem setArg1_arg1 (w : Word) : (s.setArg1 w).arg1 = w := rfl
@[simp] theorem setArg1_arg2 (w : Word) : (s.setArg1 w).arg2 = s.arg2 := rfl
@[simp] theorem setArg1_result (w : Word) : (s.setArg1 w).result = s.result := rfl
@[simp] theorem setArg1_key (w : Word) : (s.setArg1 w).key = s.key := rfl
@[simp] theorem setArg1_latch (w : Word) : (s.setArg1 w).latch = s.latch := rfl
@[simp] theorem setArg1_draws (w : Word) : (s.setArg1 w).draws = s.draws := rfl
@[simp] theorem setArg1_inputs (w : Word) : (s.setArg1 w).inputs = s.inputs := rfl
@[simp] theorem setArg1_rdata (w : Word) : (s.setArg1 w).rdata = s.rdata := rfl

/-! `setArg2` -/
@[simp] theorem setArg2_cmd (w : Word) : (s.setArg2 w).cmd = s.cmd := rfl
@[simp] theorem setArg2_status (w : Word) : (s.setArg2 w).status = s.status := rfl
@[simp] theorem setArg2_arg0 (w : Word) : (s.setArg2 w).arg0 = s.arg0 := rfl
@[simp] theorem setArg2_arg1 (w : Word) : (s.setArg2 w).arg1 = s.arg1 := rfl
@[simp] theorem setArg2_arg2 (w : Word) : (s.setArg2 w).arg2 = w := rfl
@[simp] theorem setArg2_result (w : Word) : (s.setArg2 w).result = s.result := rfl
@[simp] theorem setArg2_key (w : Word) : (s.setArg2 w).key = s.key := rfl
@[simp] theorem setArg2_latch (w : Word) : (s.setArg2 w).latch = s.latch := rfl
@[simp] theorem setArg2_draws (w : Word) : (s.setArg2 w).draws = s.draws := rfl
@[simp] theorem setArg2_inputs (w : Word) : (s.setArg2 w).inputs = s.inputs := rfl
@[simp] theorem setArg2_rdata (w : Word) : (s.setArg2 w).rdata = s.rdata := rfl

/-! `setResult` -/
@[simp] theorem setResult_cmd (w : Word) : (s.setResult w).cmd = s.cmd := rfl
@[simp] theorem setResult_status (w : Word) : (s.setResult w).status = s.status := rfl
@[simp] theorem setResult_arg0 (w : Word) : (s.setResult w).arg0 = s.arg0 := rfl
@[simp] theorem setResult_arg1 (w : Word) : (s.setResult w).arg1 = s.arg1 := rfl
@[simp] theorem setResult_arg2 (w : Word) : (s.setResult w).arg2 = s.arg2 := rfl
@[simp] theorem setResult_result (w : Word) : (s.setResult w).result = w := rfl
@[simp] theorem setResult_key (w : Word) : (s.setResult w).key = s.key := rfl
@[simp] theorem setResult_latch (w : Word) : (s.setResult w).latch = s.latch := rfl
@[simp] theorem setResult_draws (w : Word) : (s.setResult w).draws = s.draws := rfl
@[simp] theorem setResult_inputs (w : Word) : (s.setResult w).inputs = s.inputs := rfl
@[simp] theorem setResult_rdata (w : Word) : (s.setResult w).rdata = s.rdata := rfl

/-! `setKey` -/
@[simp] theorem setKey_cmd (k : KeyRegs) : (s.setKey k).cmd = s.cmd := rfl
@[simp] theorem setKey_status (k : KeyRegs) : (s.setKey k).status = s.status := rfl
@[simp] theorem setKey_arg0 (k : KeyRegs) : (s.setKey k).arg0 = s.arg0 := rfl
@[simp] theorem setKey_arg1 (k : KeyRegs) : (s.setKey k).arg1 = s.arg1 := rfl
@[simp] theorem setKey_arg2 (k : KeyRegs) : (s.setKey k).arg2 = s.arg2 := rfl
@[simp] theorem setKey_result (k : KeyRegs) : (s.setKey k).result = s.result := rfl
@[simp] theorem setKey_key (k : KeyRegs) : (s.setKey k).key = k := rfl
@[simp] theorem setKey_latch (k : KeyRegs) : (s.setKey k).latch = s.latch := rfl
@[simp] theorem setKey_draws (k : KeyRegs) : (s.setKey k).draws = s.draws := rfl
@[simp] theorem setKey_inputs (k : KeyRegs) : (s.setKey k).inputs = s.inputs := rfl
@[simp] theorem setKey_rdata (k : KeyRegs) : (s.setKey k).rdata = s.rdata := rfl

/-! `setLatch` -/
@[simp] theorem setLatch_cmd (l : Latches) : (s.setLatch l).cmd = s.cmd := rfl
@[simp] theorem setLatch_status (l : Latches) : (s.setLatch l).status = s.status := rfl
@[simp] theorem setLatch_arg0 (l : Latches) : (s.setLatch l).arg0 = s.arg0 := rfl
@[simp] theorem setLatch_arg1 (l : Latches) : (s.setLatch l).arg1 = s.arg1 := rfl
@[simp] theorem setLatch_arg2 (l : Latches) : (s.setLatch l).arg2 = s.arg2 := rfl
@[simp] theorem setLatch_result (l : Latches) : (s.setLatch l).result = s.result := rfl
@[simp] theorem setLatch_key (l : Latches) : (s.setLatch l).key = s.key := rfl
@[simp] theorem setLatch_latch (l : Latches) : (s.setLatch l).latch = l := rfl
@[simp] theorem setLatch_draws (l : Latches) : (s.setLatch l).draws = s.draws := rfl
@[simp] theorem setLatch_inputs (l : Latches) : (s.setLatch l).inputs = s.inputs := rfl
@[simp] theorem setLatch_rdata (l : Latches) : (s.setLatch l).rdata = s.rdata := rfl

/-! `setDraws` -/
@[simp] theorem setDraws_cmd (ds : List Draw) : (s.setDraws ds).cmd = s.cmd := rfl
@[simp] theorem setDraws_status (ds : List Draw) : (s.setDraws ds).status = s.status := rfl
@[simp] theorem setDraws_arg0 (ds : List Draw) : (s.setDraws ds).arg0 = s.arg0 := rfl
@[simp] theorem setDraws_arg1 (ds : List Draw) : (s.setDraws ds).arg1 = s.arg1 := rfl
@[simp] theorem setDraws_arg2 (ds : List Draw) : (s.setDraws ds).arg2 = s.arg2 := rfl
@[simp] theorem setDraws_result (ds : List Draw) : (s.setDraws ds).result = s.result := rfl
@[simp] theorem setDraws_key (ds : List Draw) : (s.setDraws ds).key = s.key := rfl
@[simp] theorem setDraws_latch (ds : List Draw) : (s.setDraws ds).latch = s.latch := rfl
@[simp] theorem setDraws_draws (ds : List Draw) : (s.setDraws ds).draws = ds := rfl
@[simp] theorem setDraws_inputs (ds : List Draw) : (s.setDraws ds).inputs = s.inputs := rfl
@[simp] theorem setDraws_rdata (ds : List Draw) : (s.setDraws ds).rdata = s.rdata := rfl

/-! `setInputs` -/
@[simp] theorem setInputs_cmd (es : List Event) : (s.setInputs es).cmd = s.cmd := rfl
@[simp] theorem setInputs_status (es : List Event) : (s.setInputs es).status = s.status := rfl
@[simp] theorem setInputs_arg0 (es : List Event) : (s.setInputs es).arg0 = s.arg0 := rfl
@[simp] theorem setInputs_arg1 (es : List Event) : (s.setInputs es).arg1 = s.arg1 := rfl
@[simp] theorem setInputs_arg2 (es : List Event) : (s.setInputs es).arg2 = s.arg2 := rfl
@[simp] theorem setInputs_result (es : List Event) : (s.setInputs es).result = s.result := rfl
@[simp] theorem setInputs_key (es : List Event) : (s.setInputs es).key = s.key := rfl
@[simp] theorem setInputs_latch (es : List Event) : (s.setInputs es).latch = s.latch := rfl
@[simp] theorem setInputs_draws (es : List Event) : (s.setInputs es).draws = s.draws := rfl
@[simp] theorem setInputs_inputs (es : List Event) : (s.setInputs es).inputs = es := rfl
@[simp] theorem setInputs_rdata (es : List Event) : (s.setInputs es).rdata = s.rdata := rfl

/-! `setRdata` -/
@[simp] theorem setRdata_cmd (w : Word) : (s.setRdata w).cmd = s.cmd := rfl
@[simp] theorem setRdata_status (w : Word) : (s.setRdata w).status = s.status := rfl
@[simp] theorem setRdata_arg0 (w : Word) : (s.setRdata w).arg0 = s.arg0 := rfl
@[simp] theorem setRdata_arg1 (w : Word) : (s.setRdata w).arg1 = s.arg1 := rfl
@[simp] theorem setRdata_arg2 (w : Word) : (s.setRdata w).arg2 = s.arg2 := rfl
@[simp] theorem setRdata_result (w : Word) : (s.setRdata w).result = s.result := rfl
@[simp] theorem setRdata_key (w : Word) : (s.setRdata w).key = s.key := rfl
@[simp] theorem setRdata_latch (w : Word) : (s.setRdata w).latch = s.latch := rfl
@[simp] theorem setRdata_draws (w : Word) : (s.setRdata w).draws = s.draws := rfl
@[simp] theorem setRdata_inputs (w : Word) : (s.setRdata w).inputs = s.inputs := rfl
@[simp] theorem setRdata_rdata (w : Word) : (s.setRdata w).rdata = w := rfl

/-- Replacing the coming events by themselves changes nothing. -/
@[simp] theorem setInputs_self : s.setInputs s.inputs = s := rfl

end Sys2Proof.Machine
end

