-- ==== Sys2Proof/Laws/Ops.lean ====
section
/-! SUPPORT. Everything a shared operation, a meaning and a step can do, said once: inversion lemmas that later proofs cite instead of
unfolding the operations. -/
namespace Sys2Proof.Machine

/-- A guarded completion answers a next state always: the completed state while BUSY = 1, otherwise the same state. -/
theorem whenRunning_eq (c s : State) :
    whenRunning c s = .next (if s.status.busy = true then c else s) := rfl

/-- While BUSY = 1 a guarded completion is the completion. -/
theorem whenRunning_busy (c s : State) (h : s.status.busy = true) : whenRunning c s = .next c := by
  simp [whenRunning, h]

/-- While BUSY = 0 a guarded completion does nothing. -/
theorem whenRunning_notBusy (c s : State) (h : s.status.busy = false) : whenRunning c s = .next s := by
  simp [whenRunning, h]

/-- What a command issue can do (R111): be ignored, dropped, rejected or accepted, each under its own condition. -/
theorem issueCommand_cases (w : Word) (s : State) :
    (s.status.fatal = true ∧ issueCommand w s = s) ∨
      (s.status.fatal = false ∧ s.status.busy = true ∧ issueCommand w s = dropCommand s) ∨
      (s.status.fatal = false ∧ s.status.busy = false ∧ (∃ r, decode w = .error r) ∧ issueCommand w s = rejectCommand s) ∨
      (s.status.fatal = false ∧ s.status.busy = false ∧ (∃ i, decode w = .ok i) ∧ issueCommand w s = acceptCommand w s) := by
  unfold issueCommand
  cases hf : s.status.fatal
  · cases hb : s.status.busy
    · cases hd : decode w <;> simp
    · simp
  · simp

/-- What a host write can do (R62): issue a command, write one operand register, or nothing. -/
theorem hostWrite_cases (i : Slot) (v : Word) (s : State) :
    (i = 0#4 ∧ hostWrite i v s = issueCommand v s) ∨ (i = 2#4 ∧ hostWrite i v s = s.setArg0 v) ∨
      (i = 3#4 ∧ hostWrite i v s = s.setArg1 v) ∨ (i = 4#4 ∧ hostWrite i v s = s.setArg2 v) ∨
      (i ≠ 0#4 ∧ i ≠ 2#4 ∧ i ≠ 3#4 ∧ i ≠ 4#4 ∧ hostWrite i v s = s) := by
  unfold hostWrite
  rcases i with ⟨⟨n, hn⟩⟩
  have : n < 16 := hn
  interval_cases n <;> simp

/-- While BUSY = 1 no host write touches BUSY, a latch or a consumed draw, so it moves neither the command in progress nor `rnd_req`. -/
theorem hostWrite_running (i : Slot) (v : Word) (s : State) (h : s.status.busy = true) :
    (hostWrite i v s).status.busy = true ∧ (hostWrite i v s).latch = s.latch ∧ (hostWrite i v s).draws = s.draws := by
  rcases hostWrite_cases i v s with ⟨_, e⟩ | ⟨_, e⟩ | ⟨_, e⟩ | ⟨_, e⟩ | ⟨_, _, _, _, e⟩ <;> rw [e]
  case inl =>
    rcases issueCommand_cases v s with ⟨_, e⟩ | ⟨_, _, e⟩ | ⟨_, h', _⟩ | ⟨_, h', _⟩
    · rw [e]; exact ⟨h, rfl, rfl⟩
    · rw [e]; exact ⟨h, rfl, rfl⟩
    · simp [h] at h'
    · simp [h] at h'
  all_goals exact ⟨h, rfl, rfl⟩

/-- What the completion shared by MODPOW, ENCRYPT and DECRYPT can do: write a result, or raise DivideByZero when OP2 = 0. -/
theorem completePower_cases (s : State) :
    (operand2 s = 0 ∧ completePower s = raiseError .divideByZero s) ∨
      (operand2 s ≠ 0 ∧ ∃ v, modPow (operand0 s) (operand1 s) (operand2 s) = .ok v ∧ completePower s = completeResult v s) := by
  by_cases h : operand2 s = 0 <;> simp [completePower, modPow, h]

/-- What the completion of GENKEY can do: wait, raise an error, or commit a KeyPair. -/
theorem completeGenkey_cases (s : State) :
    (generateKeyPair s.draws = .waiting ∧ completeGenkey s = s) ∨
      (∃ e, generateKeyPair s.draws = .failed e ∧ completeGenkey s = raiseError e s) ∨
      (∃ k, generateKeyPair s.draws = .made k ∧ completeGenkey s = completeKey (keyRegsOf k) s) := by
  unfold completeGenkey
  cases generateKeyPair s.draws <;> simp

/-- The completed state of each command, the guard on BUSY apart. -/
def completionOf (i : Instr) (s : State) : State :=
  match i with
  | .isprime => completeResult (boolResult (isPrime (operand0 s))) s
  | .gcd => completeResult (euclidGcd (operand0 s) (operand1 s)) s
  | .modinv => completeInverse (modInverse (operand0 s) (operand1 s)) s
  | .modpow => completePower s
  | .finde => completeResult (findValidE (operand0 s)) s
  | .genkey => completeGenkey s
  | .encrypt => completePower s
  | .decrypt => completePower s

/-- exec is the completion of its command, under the one guard. -/
theorem exec_eq (i : Instr) (s : State) : exec i s = whenRunning (completionOf i s) s := by
  cases i <;> rfl

/-- What a completion can do (R115, R116): write RESULT, write MODINV's RESULT and NOINV, commit a KeyPair, raise an error, or, for a GENKEY
that waits, nothing. -/
theorem completionOf_cases (i : Instr) (s : State) :
    (i ≠ .modinv ∧ i ≠ .genkey ∧ ∃ v, completionOf i s = completeResult v s) ∨
      (i = .modinv ∧ completionOf i s = completeInverse (modInverse (operand0 s) (operand1 s)) s) ∨
      ((i = .modpow ∨ i = .encrypt ∨ i = .decrypt) ∧ operand2 s = 0 ∧ completionOf i s = raiseError .divideByZero s) ∨
      (i = .genkey ∧ generateKeyPair s.draws = .waiting ∧ completionOf i s = s) ∨
      (i = .genkey ∧ ∃ e, generateKeyPair s.draws = .failed e ∧ completionOf i s = raiseError e s) ∨
      (i = .genkey ∧ ∃ k, generateKeyPair s.draws = .made k ∧ completionOf i s = completeKey (keyRegsOf k) s) := by
  have power : ∀ j, (j = Instr.modpow ∨ j = .encrypt ∨ j = .decrypt) → completionOf j s = completePower s := by
    rintro j (rfl | rfl | rfl) <;> rfl
  cases i
  case isprime => exact .inl ⟨by decide, by decide, _, rfl⟩
  case gcd => exact .inl ⟨by decide, by decide, _, rfl⟩
  case modinv => exact .inr (.inl ⟨rfl, rfl⟩)
  case finde => exact .inl ⟨by decide, by decide, _, rfl⟩
  case genkey =>
    rcases completeGenkey_cases s with h | h | h
    · exact .inr (.inr (.inr (.inl ⟨rfl, h⟩)))
    · exact .inr (.inr (.inr (.inr (.inl ⟨rfl, h⟩))))
    · exact .inr (.inr (.inr (.inr (.inr ⟨rfl, h⟩))))
  all_goals
    rw [power _ (by simp)]
    rcases completePower_cases s with ⟨h0, h⟩ | ⟨_, v, _, h⟩
    · exact .inr (.inr (.inl ⟨by simp, h0, h⟩))
    · exact .inl ⟨by decide, by decide, v, h⟩

/-- What the CORE's turn can do: nothing while BUSY = 0, otherwise the completion of the command OPC selects. -/
theorem coreTurn_cases {s t : State} (h : coreTurn s = .next t) :
    (s.status.busy = false ∧ t = s) ∨
      (s.status.busy = true ∧ ∃ i, instrOfOpcode s.latch.opc = some i ∧ t = completionOf i s) := by
  unfold coreTurn at h
  split at h
  · rename_i hb
    split at h
    · rename_i i hi
      rw [exec_eq, whenRunning_busy _ _ hb] at h
      exact .inr ⟨hb, i, hi, by simpa using h.symm⟩
    · cases h
  · rename_i hb
    exact .inl ⟨by simpa using hb, by simpa using h.symm⟩

/-- What a step can do (R70): the CORE's turn when no event is pending, otherwise the one event at the head. -/
theorem step_cases {s t : State} (h : step s = .next t) :
    (s.inputs = [] ∧ coreTurn s = .next t) ∨
      ∃ ev rest, s.inputs = ev :: rest ∧ takeEvent ev (s.setInputs rest) = .next t := by
  unfold step advance at h
  split at h
  · rename_i hi
    exact .inl ⟨hi, h⟩
  · rename_i ev rest hi
    exact .inr ⟨ev, rest, hi, h⟩

/-- What an event can do: a host write, a recorded host read, an offered draw, the CORE's turn, reset. -/
theorem takeEvent_cases {ev : Event} {s t : State} (h : takeEvent ev s = .next t) :
    (∃ i v, ev = .hostWrite i v ∧ t = hostWrite i v s) ∨ (∃ i, ev = .hostRead i ∧ t = s.setRdata (hostRead i s)) ∨
      (∃ r, ev = .draw r ∧ t = offerDraw r s) ∨ (ev = .completion ∧ coreTurn s = .next t) ∨
      (ev = .reset ∧ t = applyReset s) := by
  cases ev with
  | hostWrite i v => exact .inl ⟨i, v, rfl, by simpa [takeEvent] using h.symm⟩
  | hostRead i => exact .inr (.inl ⟨i, rfl, by simpa [takeEvent] using h.symm⟩)
  | draw r => exact .inr (.inr (.inl ⟨r, rfl, by simpa [takeEvent] using h.symm⟩))
  | completion => exact .inr (.inr (.inr (.inl ⟨rfl, h⟩)))
  | reset => exact .inr (.inr (.inr (.inr ⟨rfl, by simpa [takeEvent] using h.symm⟩)))

/-- What an offered draw can do: be consumed while `rnd_req = 1`, or nothing. -/
theorem offerDraw_cases (r : Draw) (s : State) :
    (rndReq s = true ∧ offerDraw r s = s.setDraws (s.draws ++ [r])) ∨ (rndReq s = false ∧ offerDraw r s = s) := by
  cases h : rndReq s <;> simp [offerDraw, h]

end Sys2Proof.Machine
end

