-- ==== Sys2Proof/Laws/PerInstr.lean ====
section
/-! SUPPORT. Statements made per instruction (LAWS.json): the encoding of each command is a legal word of format C that carries its
opcode (30_encoding.md R91, R93, R94). -/
namespace Sys2Proof.Laws.Encoding

/-- The command's word is legal, and its opcode field names the command in the opcode map. -/
def Statement (i : Instr) : Prop :=
  legalWord (encode i) = true ∧ opcodeField (encode i) = opcodeOf i ∧ instrOfOpcode (opcodeOf i) = some i

theorem isprime : Statement .isprime := by unfold Statement; decide

theorem gcd : Statement .gcd := by unfold Statement; decide

theorem modinv : Statement .modinv := by unfold Statement; decide

theorem modpow : Statement .modpow := by unfold Statement; decide

theorem finde : Statement .finde := by unfold Statement; decide

theorem genkey : Statement .genkey := by unfold Statement; decide

theorem encrypt : Statement .encrypt := by unfold Statement; decide

theorem decrypt : Statement .decrypt := by unfold Statement; decide

end Sys2Proof.Laws.Encoding
end

