-- ==== Sys2Proof/Machine/Script.lean ====
section
/-! DEFINITION. The host notation of 30_encoding.md R97 and the pseudo-instructions of R98, as the events they stand for. -/
namespace Sys2Proof.Machine

/-- One line of a host program (R97). -/
inductive Line where
  /-- `WR <reg>, <value>`. -/
  | wr (slot : Slot) (value : Word)
  /-- `RD <reg>`. -/
  | rd (slot : Slot)
  /-- `CMD <mnemonic>`. -/
  | cmd (i : Instr)
  /-- `CMDW <word>`. -/
  | cmdw (word : Word)
  /-- `WAIT`. -/
  | wait
  /-- `RND <v>`. -/
  | rnd (v : Draw)
  /-- `RESET`. -/
  | reset
deriving DecidableEq, Repr

/-- The events of a line (R97). `WAIT` reads STATUS until BUSY is 0; with no time in the model it is the CORE's step and then one read
(notes/assumptions/16.md). -/
def lineEvents : Line → List Event
  | .wr i v => [.hostWrite i v]
  | .rd i => [.hostRead i]
  | .cmd i => [.hostWrite 0 (encode i)]
  | .cmdw w => [.hostWrite 0 w]
  | .wait => [.completion, .hostRead 1]
  | .rnd v => [.draw v]
  | .reset => [.reset]

/-- The port transaction `(h_we, h_addr, h_wdata)` of a line (R97): none for the lines that are no host access; a read has no write data. -/
def lineTransaction : Line → Option (Bool × Slot × Option Word)
  | .wr i v => some (true, i, some v)
  | .rd i => some (false, i, none)
  | .cmd i => some (true, 0, some (encode i))
  | .cmdw w => some (true, 0, some w)
  | .wait => some (false, 1, none)
  | .rnd _ => none
  | .reset => none

/-- `CALL ISPRIME(num)` (R98). -/
def callIsprime (num : Word) : List Line := [.wr 2 num, .cmd .isprime, .wait, .rd 5]

/-- `CALL GCD(a, b)` (R98). -/
def callGcd (a b : Word) : List Line := [.wr 2 a, .wr 3 b, .cmd .gcd, .wait, .rd 5]

/-- `CALL MODINV(a, m)` (R98). -/
def callModinv (a m : Word) : List Line := [.wr 2 a, .wr 3 m, .cmd .modinv, .wait, .rd 1, .rd 5]

/-- `CALL MODPOW(base, exp, modulus)` (R98). -/
def callModpow (base exp modulus : Word) : List Line :=
  [.wr 2 base, .wr 3 exp, .wr 4 modulus, .cmd .modpow, .wait, .rd 1, .rd 5]

/-- `CALL FINDE(phi)` (R98). -/
def callFinde (phi : Word) : List Line := [.wr 2 phi, .cmd .finde, .wait, .rd 5]

/-- `CALL GENKEY()` (R98); the draws are the source's, `RND` lines between the `CMD` and the `WAIT`. -/
def callGenkey (draws : List Draw) : List Line :=
  [.cmd .genkey] ++ draws.map .rnd ++ [.wait, .rd 1, .rd 6, .rd 7, .rd 8, .rd 9, .rd 10, .rd 11]

/-- `CALL ENCRYPT(m, e, n)` (R98). -/
def callEncrypt (m e n : Word) : List Line := [.wr 2 m, .wr 3 e, .wr 4 n, .cmd .encrypt, .wait, .rd 1, .rd 5]

/-- `CALL DECRYPT(c, d, n)` (R98). -/
def callDecrypt (c d n : Word) : List Line := [.wr 2 c, .wr 3 d, .wr 4 n, .cmd .decrypt, .wait, .rd 1, .rd 5]

/-- The events of a host program, line by line (R97). -/
def scriptEvents (ls : List Line) : List Event := ls.flatMap lineEvents

end Sys2Proof.Machine
end

