-- ==== Sys2Proof/Tests/Slice0.lean ====
section
/-! SUPPORT. Tests by `decide`, each on one event of a small state, with the expected values of spec/ (30_encoding.md, the worked examples and
vectors of 95_test_vectors.md); and, for every statement with hypotheses, named witnesses of what they ask for. -/
namespace Sys2Proof.Machine.Tests

/-! ### Helpers -/

/-- The reset state with the operand registers loaded. -/
def loaded (a b c : Word) : State := ((State.reset.setArg0 a).setArg1 b).setArg2 c

/-- The command `i` accepted on the operands `a`, `b`, `c`, with the draws `ds` consumed. -/
def running (i : Instr) (a b c : Word) (ds : List Draw) : State := (hostWrite 0 (encode i) (loaded a b c)).setDraws ds

/-- The next state of an outcome, none where the machine stops. -/
def after (o : StepOutcome) : Option State :=
  match o with
  | .next t => some t
  | .fault _ => none
  | .refused _ => none

/-- RESULT and the STATUS word after the CORE's turn. -/
def resultOf (s : State) : Option (Word × Word) := (after (step s)).map fun t => (t.result, hostRead 1 t)

/-- The six KEY registers and the STATUS word after the CORE's turn. -/
def keyOf (s : State) : Option (List Word × Word) :=
  (after (step s)).map fun t => ([6, 7, 8, 9, 10, 11].map fun i => hostRead i t, hostRead 1 t)

/-- The DEAD condition, which an InvariantViolation would leave. -/
def dead : State := raiseError .invariantViolation (running .genkey 0 0 0 [])

/-! ### WellFormed: each check refuses an ill-formed word (R94) -/

/-- Opcode 1 with bit 4 set: the ZERO field is not zero (95_test_vectors.md part 6). -/
theorem test_wellFormed_zeroField : zeroFieldClear 0x00000011 = false ∧ opcodeInRange 0x00000011 = true ∧ legalWord 0x00000011 = false := by
  decide

/-- The top bit alone is enough. -/
theorem test_wellFormed_topBit : zeroFieldClear 0x80000001 = false ∧ legalWord 0x80000001 = false := by decide

/-- Opcodes 0, 9 and 15 name no command, 1 and 8 are the ends of the legal range. -/
theorem test_wellFormed_opcode : legalWord 0 = false ∧ legalWord 9 = false ∧ legalWord 15 = false ∧ legalWord 1 = true ∧ legalWord 8 = true := by
  decide

/-! ### Decode: the words of R93, written out bit by bit -/

theorem test_decode_isprime : decode 0b00000000000000000000000000000001#32 = .ok .isprime := by decide

theorem test_decode_gcd : decode 0b00000000000000000000000000000010#32 = .ok .gcd := by decide

theorem test_decode_modinv : decode 0b00000000000000000000000000000011#32 = .ok .modinv := by decide

theorem test_decode_modpow : decode 0b00000000000000000000000000000100#32 = .ok .modpow := by decide

theorem test_decode_finde : decode 0b00000000000000000000000000000101#32 = .ok .finde := by decide

theorem test_decode_genkey : decode 0b00000000000000000000000000000110#32 = .ok .genkey := by decide

theorem test_decode_encrypt : decode 0b00000000000000000000000000000111#32 = .ok .encrypt := by decide

theorem test_decode_decrypt : decode 0b00000000000000000000000000001000#32 = .ok .decrypt := by decide

/-- The illegal words of 95_test_vectors.md part 6, each refused by the check that fails. -/
theorem test_decode_illegal :
    decode 0x00000000 = .error .noSuchOpcode ∧ decode 0x00000009 = .error .noSuchOpcode ∧ decode 0x0000000F = .error .noSuchOpcode ∧
      decode 0x00000011 = .error .zeroFieldNotZero ∧ decode 0x00000100 = .error .zeroFieldNotZero ∧
      decode 0xFFFFFFFF = .error .zeroFieldNotZero := by
  decide

/-- The table word of a row decodes, an illegal one does not. -/
theorem test_decodeTableWord : decodeTableWord 32 7 = some .encrypt ∧ decodeTableWord 32 0x13 = none := by decide

/-! ### The eight commands (95_test_vectors.md parts 1 to 5, and the corner cases of the rules) -/

/-- R131: 49 is composite at `i = 7`, the last candidate. -/
theorem test_isprime_square : resultOf (running .isprime 49 0 0 []) = some (0, 0x00000002) := by decide

/-- 95_test_vectors.md program P5: 97 is prime. -/
theorem test_isprime_prime : resultOf (running .isprime 97 0 0 []) = some (1, 0x00000002) := by decide

/-- R133: `Gcd(12, 18) = 6`, with the swap. -/
theorem test_gcd_swaps : resultOf (running .gcd 12 18 0 []) = some (6, 0x00000002) := by decide

/-- R133: `Gcd(4294967295, 65537) = 65537`. -/
theorem test_gcd_top : resultOf (running .gcd 4294967295 65537 0 []) = some (65537, 0x00000002) := by decide

/-- DOC00's scenario: `mod_inverse(3, 40) = 27`. -/
theorem test_modinv_scenario : resultOf (running .modinv 3 40 0 []) = some (27, 0x00000002) := by decide

/-- DOC00's boundary: `mod_inverse(2, 4) = -1`, NOINV = 1. -/
theorem test_modinv_sentinel : resultOf (running .modinv 2 4 0 []) = some (0xFFFFFFFF, 0x0000000A) := by decide

/-- DOC00's scenario: `9^3 mod 55 = 14`. -/
theorem test_modpow_scenario : resultOf (running .modpow 9 3 55 []) = some (14, 0x00000002) := by decide

/-- R152: `ModPow(x, 0, 0)` raises DivideByZero. -/
theorem test_modpow_zeroModulus : resultOf (running .modpow 3 0 0 []) = some (0, 0x00000206) := by decide

/-- R163: `FindValidE(420) = 11` (95_test_vectors.md program P6). -/
theorem test_finde_scan : resultOf (running .finde 420 0 0 []) = some (11, 0x00000002) := by decide

/-- R160 (a): no candidate below 3, so the fallback. -/
theorem test_finde_fallback : resultOf (running .finde 3 0 0 []) = some (65537, 0x00000002) := by decide

/-- DOC00's scenario: draws 2 and 4 give `p = 5, q = 11, n = 55, phi = 40, e = 3, d = 27`. -/
theorem test_genkey_scenario : keyOf (running .genkey 0 0 0 [2, 4]) = some ([5, 11, 55, 40, 3, 27], 0x00000022) := by decide

/-- 95_test_vectors.md programs P3 and P4: the fallback key after two repeated draws, and RngRange on a draw of 15. -/
theorem test_genkey_resample_and_range :
    keyOf (running .genkey 0 0 0 [0, 0, 0, 1]) = some ([2, 3, 6, 2, 65537, 1], 0x00000022) ∧
      keyOf (running .genkey 0 0 0 [7, 7, 15]) = some ([0, 0, 0, 0, 0, 0], 0x00000306) := by
  decide

/-- DOC00's scenario: `encrypt(9, 3, 55) = 14`. -/
theorem test_encrypt_scenario : resultOf (running .encrypt 9 3 55 []) = some (14, 0x00000002) := by decide

/-- R154: `ModPow(x, 0, 1) = 1`, no reduction of the initial accumulator. -/
theorem test_encrypt_modulusOne : resultOf (running .encrypt 5 0 1 []) = some (1, 0x00000002) := by decide

/-- DOC00's scenario: `decrypt(14, 27, 55) = 9`. -/
theorem test_decrypt_scenario : resultOf (running .decrypt 14 27 55 []) = some (9, 0x00000002) := by decide

/-- 95_test_vectors.md program P6: `395^191 mod 473 = 65`. -/
theorem test_decrypt_p6 : resultOf (running .decrypt 395 191 473 []) = some (65, 0x00000002) := by decide

/-! ### The lifecycle (95_test_vectors.md part 6) -/

/-- An illegal word in IDLE, after a MODINV that found no inverse: NOINV cleared, RESULT kept. -/
theorem test_illegal_after_sentinel :
    ((after (step (running .modinv 2 4 0 []))).map fun t => (hostRead 1 (hostWrite 0 0 t), hostRead 5 (hostWrite 0 0 t))) =
      some (0x00000106, 0xFFFFFFFF) := by
  decide

/-- A command issue while RUNNING is dropped, and the completion leaves CMDDROP. -/
theorem test_dropped :
    hostRead 1 (hostWrite 0 3 (running .gcd 1 1 0 [])) = 0x00000041 ∧ hostRead 0 (hostWrite 0 3 (running .gcd 1 1 0 [])) = 2 ∧
      resultOf (hostWrite 0 3 (running .gcd 1 1 0 [])) = some (1, 0x00000042) := by
  decide

/-- The operand written after the acceptance is not the one used: 49 was latched. -/
theorem test_latched : resultOf (hostWrite 2 47 (running .isprime 49 0 0 [])) = some (0, 0x00000002) := by decide

/-- DEAD: STATUS `0x416`, a command issue ignored, ARG0 writable. -/
theorem test_dead : hostRead 1 dead = 0x00000416 ∧ hostWrite 0 1 dead = dead ∧ hostRead 2 (hostWrite 2 7 dead) = 7 := by decide

/-- The expansion of `CALL MODINV(2, 4)` (R98) as events, run from reset: the last read is RESULT. -/
theorem test_call_modinv :
    ((after (takeEvents (scriptEvents (callModinv 2 4)) State.reset)).map (·.rdata)) = some 0xFFFFFFFF := by
  decide

/-- The port transaction of `CMD GENKEY` (R97). -/
theorem test_transaction : lineTransaction (.cmd .genkey) = some (true, 0, some 6) ∧ lineTransaction (.rd 5) = some (false, 5, none) := by
  decide

/-- One clock edge: a CMD write in the cycle in which GCD finishes is dropped, then GCD completes (90_conflicts.md C4). -/
theorem test_edge_drop :
    ((after (clockEdge { rst := false, hSel := true, hWe := true, hAddr := 0, hWdata := 1, rndValid := false, rndIdx := 0 } true
      (running .gcd 12 18 0 []))).map fun t => (t.result, hostRead 1 t)) = some (6, 0x00000042) := by
  decide

/-- One clock edge: a write to ARG2 in the cycle in which GENKEY finishes takes its effect beside the KeyPair (R23, R74). -/
theorem test_edge_genkey :
    ((after (clockEdge { rst := false, hSel := true, hWe := true, hAddr := 4, hWdata := 55, rndValid := false, rndIdx := 0 } true
      (running .genkey 0 0 0 [2, 4]))).map fun t => (t.arg2, t.key.d, hostRead 1 t)) = some (55, 27, 0x00000022) := by
  decide

/-- One clock edge with no host access: GENKEY consumes the draw offered and does not complete at that edge (R75). -/
theorem test_edge_draw :
    ((after (clockEdge { rst := false, hSel := false, hWe := false, hAddr := 0, hWdata := 0, rndValid := true, rndIdx := 4 } true
      (running .genkey 0 0 0 [2]))).map fun t => (t.draws, hostRead 1 t)) = some ([2, 4], 0x00000001) := by
  decide

/-- One clock edge with no host access at which GCD finishes. -/
theorem test_edge_completes :
    ((after (clockEdge { rst := false, hSel := false, hWe := false, hAddr := 0, hWdata := 0, rndValid := false, rndIdx := 0 } true
      (running .gcd 12 18 0 []))).map fun t => (t.result, hostRead 1 t)) = some (6, 0x00000002) := by
  decide

/-- A second GENKEY starts afresh: after the KeyPair of the draws 2 and 4 it waits for draws of its own (R34, R165). -/
theorem test_genkey_twice :
    ((after (step (running .genkey 0 0 0 [2, 4]))).map fun t => (rndReq (hostWrite 0 6 t), (hostWrite 0 6 t).draws)) =
      some (true, []) := by
  decide

/-! ### The placing of a table word -/

/-- The next step runs the command placed: on the reset operands GCD gives 0, MODINV the sentinel, MODPOW DivideByZero (R224). -/
theorem test_withFetchWord :
    resultOf (State.reset.withFetchWord 32 2) = some (0, 0x00000002) ∧
      resultOf (State.reset.withFetchWord 32 3) = some (0xFFFFFFFF, 0x0000000A) ∧
      resultOf (State.reset.withFetchWord 32 4) = some (0, 0x00000206) := by
  decide

/-- GENKEY placed runs on the draws 2 and 4; an illegal word placed is rejected by the very next step. -/
theorem test_withFetchWord_genkey_illegal :
    keyOf (State.reset.withFetchWord 32 6) = some ([5, 11, 55, 40, 3, 27], 0x00000022) ∧
      resultOf (State.reset.withFetchWord 32 9) = some (0, 0x00000106) := by
  decide

/-! ### Witnesses: every statement with hypotheses has a state and operands that meet them -/

theorem witness_legalWords :
    State.reset.status.busy = false ∧ State.reset.status.fatal = false ∧ ¬ (1 ≤ (0 : Word).toNat ∧ (0 : Word).toNat ≤ 8) ∧
      ¬ (1 ≤ (9 : Word).toNat ∧ (9 : Word).toNat ≤ 8) ∧ ¬ (1 ≤ (0x11 : Word).toNat ∧ (0x11 : Word).toNat ≤ 8) := by
  decide

theorem witness_readOnlySlots :
    ((1 : Slot) = 1 ∨ 5 ≤ (1 : Slot).toNat ∧ (1 : Slot).toNat ≤ 11) ∧ ((5 : Slot) = 1 ∨ 5 ≤ (5 : Slot).toNat ∧ (5 : Slot).toNat ≤ 11) ∧
      ((11 : Slot) = 1 ∨ 5 ≤ (11 : Slot).toNat ∧ (11 : Slot).toNat ≤ 11) := by
  decide

theorem witness_reservedSlots : 12 ≤ (12 : Slot).toNat ∧ 12 ≤ (15 : Slot).toNat := by decide

/-- Every event has a next state, so the statements about an event's next state are about something. -/
theorem witness_eventsAnswer :
    (∃ t, takeEvent (.hostWrite 2 7) (running .genkey 0 0 0 []) = .next t ∧ t.arg0 = 7) ∧
      (∃ t, takeEvent (.hostWrite 3 7) dead = .next t ∧ t.arg1 = 7) ∧ (∃ t, takeEvent (.hostWrite 4 7) State.reset = .next t ∧ t.arg2 = 7) ∧
      (∃ t, takeEvent (.hostRead 5) State.reset = .next t) ∧ (∃ t, takeEvent (.draw 3) State.reset = .next t) ∧
      (∃ t, takeEvent .completion State.reset = .next t) ∧ (∃ t, takeEvent .reset dead = .next t) :=
  ⟨⟨_, rfl, rfl⟩, ⟨_, rfl, rfl⟩, ⟨_, rfl, rfl⟩, ⟨_, rfl⟩, ⟨_, rfl⟩, ⟨_, rfl⟩, ⟨_, rfl⟩⟩

/-- RESULT changes at a completion and at reset. -/
theorem witness_resultChanges :
    (∃ t, takeEvent .completion (running .gcd 12 18 0 []) = .next t ∧ t.result ≠ (running .gcd 12 18 0 []).result) ∧
      (∃ t, takeEvent .reset (State.reset.setResult 5) = .next t ∧ t.result ≠ (State.reset.setResult 5).result) :=
  ⟨⟨_, rfl, by decide⟩, ⟨_, rfl, by decide⟩⟩

/-- The KEY registers change at a completion of GENKEY and at reset. -/
theorem witness_keyChanges :
    (∃ t, takeEvent .completion (running .genkey 0 0 0 [2, 4]) = .next t ∧ t.key ≠ (running .genkey 0 0 0 [2, 4]).key) ∧
      (∃ t, takeEvent .reset (completeKey { p := 5, q := 11, n := 55, phi := 40, e := 3, d := 27 } State.reset) = .next t ∧
        t.key ≠ (completeKey { p := 5, q := 11, n := 55, phi := 40, e := 3, d := 27 } State.reset).key) :=
  ⟨⟨_, rfl, by decide⟩, ⟨_, rfl, by decide⟩⟩

/-- CMD changes at an acceptance and at reset. -/
theorem witness_cmdChanges :
    (∃ t, takeEvent (.hostWrite 0 8) State.reset = .next t ∧ t.cmd ≠ State.reset.cmd) ∧
      (∃ t, takeEvent .reset (running .decrypt 0 0 0 []) = .next t ∧ t.cmd ≠ (running .decrypt 0 0 0 []).cmd) :=
  ⟨⟨_, rfl, by decide⟩, ⟨_, rfl, by decide⟩⟩

/-- The two clauses on the next event. -/
theorem witness_nextEvent :
    (State.reset.setInputs [.draw 3]).inputs = .draw 3 :: [] ∧ State.reset.inputs = [] := by decide

/-- The four clauses on the CORE's turn. -/
theorem witness_coreTurn :
    (running .finde 40 0 0 []).status.busy = true ∧ (running .finde 40 0 0 []).latch.opc = opcodeOf .finde ∧
      (running .finde 40 0 0 []).inputs = [] ∧
      ((running .finde 40 0 0 []).setInputs [.completion]).inputs = .completion :: [] ∧
      ((running .finde 40 0 0 []).setInputs [.completion]).status.busy = true ∧
      State.reset.status.busy = false ∧ State.reset.inputs = [] ∧
      (State.reset.setInputs [.completion]).inputs = .completion :: [] := by
  decide

/-- A word issued, then run. -/
theorem witness_issuedWord :
    (State.reset.setInputs [.hostWrite 0 8, .completion]).status.busy = false ∧
      (State.reset.setInputs [.hostWrite 0 8, .completion]).status.fatal = false ∧
      (State.reset.setInputs [.hostWrite 0 8, .completion]).inputs = .hostWrite 0 8 :: .completion :: [] ∧ decode 8 = .ok .decrypt := by
  decide

/-- IDLE, with a legal and an illegal word; RUNNING; DEAD: what the statements on a command issue ask for. -/
theorem witness_issue :
    State.reset.status.busy = false ∧ State.reset.status.fatal = false ∧ decode 1 = .ok .isprime ∧ decode 8 = .ok .decrypt ∧
      decode 0 = .error .noSuchOpcode ∧ decode 9 = .error .noSuchOpcode ∧ decode 0x11 = .error .zeroFieldNotZero ∧
      (running .gcd 0 0 0 []).status.busy = true ∧ (running .gcd 0 0 0 []).status.fatal = false ∧
      (running .gcd 0 0 0 []).status.condition = .running ∧ dead.status.fatal = true := by
  decide

/-- While RUNNING, an event that is neither the completion nor reset. -/
theorem witness_runningEvent :
    ∃ t, takeEvent (.hostWrite 0 1) (running .gcd 0 0 0 []) = .next t ∧ Event.hostWrite 0 1 ≠ .completion ∧ Event.hostWrite 0 1 ≠ .reset :=
  ⟨_, rfl, by decide, by decide⟩

/-- An execution whose operand registers can be changed. -/
theorem witness_execAnswers : ∃ t, exec .modpow (running .modpow 9 3 55 []) = .next t := ⟨_, rfl⟩

/-- CMDDROP = 1 before an event that keeps it, and before the two that clear it. -/
theorem witness_cmddrop :
    (dropCommand (running .gcd 0 0 0 [])).status.cmddrop = true ∧
      (∃ t, takeEvent .completion (dropCommand (running .gcd 0 0 0 [])) = .next t ∧ t.status.cmddrop = true) ∧
      (∃ t, takeEvent (.hostWrite 0 1) (dropCommand State.reset) = .next t ∧ t.status.cmddrop = false) ∧
      (∃ t, takeEvent .reset (dropCommand State.reset) = .next t ∧ t.status.cmddrop = false) :=
  ⟨by decide, ⟨_, rfl, by decide⟩, ⟨_, rfl, by decide⟩, ⟨_, rfl, by decide⟩⟩

/-- Two states that agree on the latches and the draws and differ elsewhere, for GENKEY and for MODINV. -/
theorem witness_sameLatches :
    (running .genkey 1 2 3 [2, 4]).latch = ((running .genkey 1 2 3 [2, 4]).setResult 5).latch ∧
      (running .genkey 1 2 3 [2, 4]).draws = ((running .genkey 1 2 3 [2, 4]).setResult 5).draws ∧
      (running .genkey 1 2 3 [2, 4]).status.busy = true ∧ (running .genkey 1 2 3 [2, 4]).status.err = false ∧
      (running .genkey 1 2 3 [2, 4]) ≠ (running .genkey 1 2 3 [2, 4]).setResult 5 ∧
      (running .modinv 2 4 0 []).latch = ((running .modinv 2 4 0 []).setArg0 9).latch := by
  decide

/-- BUSY = 1 with OPC each command's opcode: what the statements of a command's result ask for. -/
theorem witness_running :
    ∀ i ∈ [Instr.isprime, .gcd, .modinv, .modpow, .finde, .genkey, .encrypt, .decrypt],
      (running i 9 3 55 []).status.busy = true ∧ (running i 9 3 55 []).latch.opc = opcodeOf i := by
  decide

/-- The rows of R136, at the ends of their ranges. -/
theorem witness_inverseRows :
    Nat.gcd 0 0 ≠ 1 ∧ Nat.gcd 0 2 ≠ 1 ∧ Nat.gcd 2 0 ≠ 1 ∧ Nat.gcd 2 2 ≠ 1 ∧ (2 ≤ 2 ∧ Nat.gcd 1 2 = 1) ∧
      (2 ≤ 4294967295 ∧ Nat.gcd 4294967294 4294967295 = 1) ∧ 2 ≤ 2 ∧ 4294967295 < 2 ^ 32 := by
  decide

/-- MODINV's sentinel and a value that is not. -/
theorem witness_inverseValues : modInverse 2 4 = -1 ∧ modInverse 3 40 = 27 ∧ modInverse 7 1 = 0 := by decide

/-- The moduli at the ends of the clauses of R154 and R192, and the state of each. -/
theorem witness_moduli :
    2 ≤ 2 ∧ 1 ≤ 1 ∧ modPow 9 3 55 = .ok 14 ∧ modPow 5 0 1 = .ok 1 ∧ 4294967295 < 2 ^ 32 ∧
      (running .encrypt 9 3 1 []).latch.op2 ≠ 0 ∧ (running .decrypt 9 3 4294967295 []).latch.op2 ≠ 0 ∧
      (running .modpow 9 3 0 []).latch.op2 = 0 ∧ (running .modpow 9 3 0 []).status.noinv = false ∧
      (running .modpow 9 3 0 []).status.fatal = false := by
  decide

/-- A KeyPair with the largest message below `n`. -/
theorem witness_keyPair :
    generateKeyPair [2, 4] = .made { p := 5, q := 11, n := 55, phi := 40, e := 3, d := 27 } ∧ 54 < 55 := by decide

/-- A message above the modulus, and the state whose OP0 is its residue. -/
theorem witness_reducedMessage :
    (running .encrypt 64 3 55 []).status.busy = true ∧ (running .encrypt 64 3 55 []).latch.op2 ≠ 0 ∧
      (running .encrypt 9 3 55 []).latch.op0.toNat =
        (running .encrypt 64 3 55 []).latch.op0.toNat % (running .encrypt 64 3 55 []).latch.op2.toNat ∧
      (running .encrypt 9 3 55 []).latch.op1 = (running .encrypt 64 3 55 []).latch.op1 ∧
      (running .encrypt 9 3 55 []).latch.op2 = (running .encrypt 64 3 55 []).latch.op2 := by
  decide

/-- Draws that decide, at the ends of the table, with no repeat and with two. -/
theorem witness_decidingDraws :
    (0 : Draw) ≠ 15 ∧ (14 : Draw) ≠ 15 ∧ (14 : Draw) ≠ 0 ∧
      (running .genkey 0 0 0 [0, 14]).draws = 0 :: (List.replicate 0 0 ++ [14]) ∧
      (running .genkey 0 0 0 [14, 14, 14, 0]).draws = 14 :: (List.replicate 2 14 ++ [0]) ∧
      (running .genkey 0 0 0 [15]).draws = [15] ∧
      (running .genkey 0 0 0 [7, 7, 15]).draws = 7 :: (List.replicate 1 7 ++ [15]) := by
  decide

/-- A draw of 15 consumed first, and after repeated draws. -/
theorem witness_drawOutsideTheTable :
    (running .genkey 0 0 0 [15]).draws = [] ++ [15] ∧ (∀ r ∈ ([] : List Draw), r ≠ 15 ∧ ([] : List Draw).head? = some r) ∧
      (running .genkey 0 0 0 [7, 7, 15]).draws = [7, 7] ++ [15] ∧ (∀ r ∈ [(7 : Draw), 7], r ≠ 15 ∧ [(7 : Draw), 7].head? = some r) ∧
      (running .genkey 0 0 0 [15]).status.busy = true ∧ (running .genkey 0 0 0 [15]).status.noinv = false ∧
      (running .genkey 0 0 0 [15]).status.fatal = false := by
  decide

/-- GENKEY that waits: no draw, and repeated draws; `rnd_req` 1, and 0 once the draws decide. -/
theorem witness_waiting :
    (running .genkey 0 0 0 []).draws = List.replicate 0 3 ∧ (running .genkey 0 0 0 [3, 3]).draws = List.replicate 2 3 ∧
      rndReq (running .genkey 0 0 0 []) = true ∧ rndReq (running .genkey 0 0 0 [3, 3]) = true ∧
      rndReq (running .genkey 0 0 0 [3, 4]) = false := by
  decide

/-- A completion that ends the command, of GENKEY and of another command, and the acceptance of a GENKEY. -/
theorem witness_drawsEnd :
    (∃ t, exec .genkey (running .genkey 0 0 0 [2, 4]) = .next t ∧ t.status.busy = false) ∧
      (∃ t, exec .gcd (running .gcd 1 1 0 []) = .next t ∧ t.status.busy = false) ∧ decode 6 = .ok .genkey :=
  ⟨⟨_, rfl, by decide⟩, ⟨_, rfl, by decide⟩, by decide⟩

/-- The three errors a completion can raise. -/
theorem witness_errors :
    ErrorKind.divideByZero ≠ .illegalCommand ∧ ErrorKind.rngRange ≠ .illegalCommand ∧ ErrorKind.invariantViolation ≠ .illegalCommand := by
  decide

/-- DEAD, and an event other than reset in it; slots from 2 on. -/
theorem witness_dead :
    dead = raiseError .invariantViolation (running .genkey 0 0 0 []) ∧ (∃ u, takeEvent .completion dead = .next u) ∧
      2 ≤ (2 : Slot).toNat ∧ 2 ≤ (15 : Slot).toNat :=
  ⟨rfl, ⟨_, rfl⟩, by decide, by decide⟩

/-- The clauses on what only reset clears. -/
theorem witness_onlyReset :
    dead.status.fatal = true ∧ (completeKey { p := 5, q := 11, n := 55, phi := 40, e := 3, d := 27 } State.reset).status.keyvalid = true ∧
      (∃ t, takeEvent .completion (running .gcd 1 1 0 []) = .next t ∧ t.status.busy = false) ∧
      (∃ t, takeEvent (.hostRead 1) (running .genkey 0 0 0 []) = .next t ∧ rndReq (running .genkey 0 0 0 []) = true) :=
  ⟨by decide, by decide, ⟨_, rfl, by decide⟩, ⟨_, rfl, by decide⟩⟩

/-- The pins of the clauses on one clock edge: a CMD write, a read, no access with a draw offered and without; and of an edge with reset. -/
theorem witness_pins :
    ∃ write read offer quiet reset : Pins, (write.rst = false ∧ write.hSel = true ∧ write.hWe = true ∧ write.hAddr = 0) ∧
      (read.rst = false ∧ read.hSel = true ∧ read.hWe = false) ∧ (offer.rst = false ∧ offer.hSel = false ∧ offer.rndValid = true) ∧
      (quiet.rst = false ∧ quiet.hSel = false ∧ quiet.rndValid = false) ∧ reset.rst = true :=
  ⟨{ rst := false, hSel := true, hWe := true, hAddr := 0, hWdata := 1, rndValid := false, rndIdx := 0 },
    { rst := false, hSel := true, hWe := false, hAddr := 5, hWdata := 0, rndValid := false, rndIdx := 0 },
    { rst := false, hSel := false, hWe := false, hAddr := 0, hWdata := 0, rndValid := true, rndIdx := 15 },
    { rst := false, hSel := false, hWe := false, hAddr := 0, hWdata := 0, rndValid := false, rndIdx := 0 },
    { rst := true, hSel := true, hWe := true, hAddr := 0, hWdata := 1, rndValid := true, rndIdx := 3 }, by decide⟩

/-- The states of those clauses: a command whose completion is due at the edge, a GENKEY whose draws decide, one that waits, and IDLE. -/
theorem witness_completionDue :
    rndReq (running .gcd 12 18 0 []) = false ∧ (running .gcd 12 18 0 []).status.fatal = false ∧
      (running .genkey 0 0 0 [2, 4]).status.busy = true ∧ (running .genkey 0 0 0 [2, 4]).latch.opc = opcodeOf .genkey ∧
      rndReq (running .genkey 0 0 0 [2, 4]) = false ∧ (running .genkey 0 0 0 [2, 4]).status.fatal = false ∧
      rndReq (running .genkey 0 0 0 [2]) = true ∧ rndReq State.reset = false ∧ State.reset.status.busy = false := by
  decide

/-- States that meet the invariants: at rest, RUNNING, after an error, with a KeyPair, with the sentinel, and DEAD. -/
theorem witness_invariants :
    StatusInv State.reset ∧ StatusInv (running .modinv 2 4 0 []) ∧ StatusInv (rejectCommand State.reset) ∧
      StatusInv (completeInverse (-1) (running .modinv 2 4 0 [])) ∧ StatusInv dead ∧
      (running .modinv 2 4 0 []).status.busy = true :=
  ⟨by decide, by decide, by decide, by decide, by decide, by decide⟩

/-- Each of those states has a next state. -/
theorem witness_stepAnswers :
    (∃ t, step State.reset = .next t) ∧ (∃ t, step (running .modinv 2 4 0 []) = .next t) ∧ (∃ t, step dead = .next t) :=
  ⟨⟨_, rfl⟩, ⟨_, rfl⟩, ⟨_, rfl⟩⟩

/-- A state with KEYVALID = 1 and a KeyPair. -/
theorem witness_keyInv :
    KeyInv { State.reset with status := { State.reset.status with keyvalid := true },
                              key := { p := 5, q := 11, n := 55, phi := 40, e := 3, d := 27 } } := by
  intro _
  refine ⟨by decide, by decide, Nat.prime_five, Nat.prime_eleven, by decide, by decide, by decide, by decide, by decide, by decide, by decide,
    by decide, by decide, by decide, by decide, by decide, by decide⟩

/-- BUSY and DONE apart, and a state in which they are. -/
theorem witness_busyDone :
    (running .gcd 0 0 0 []).status.busy ≠ (running .gcd 0 0 0 []).status.done ∧ LatchedLegal (running .gcd 0 0 0 []) ∧
      LatchedLegal State.reset := by
  decide

end Sys2Proof.Machine.Tests
end

section
/-! PROOFS. The host port on slots that hold no register of their own (R39, R62). -/
namespace Sys2Proof.Machine

/-- A reserved slot (12 to 15) is none of the register slots, so a read takes the last row of R61's table. -/
theorem hostRead_reserved {i : Slot} (h : 12 ≤ i.toNat) (s : State) : hostRead i s = 0 := by
  unfold hostRead
  split
  case h_13 => rfl
  all_goals omega

/-- Only slot 0 and the operand registers' slots take a write (R62). -/
theorem hostWrite_eq_self {i : Slot} (h0 : i ≠ 0#4) (h2 : i ≠ 2#4) (h3 : i ≠ 3#4) (h4 : i ≠ 4#4) (v : Word) (s : State) :
    hostWrite i v s = s := by
  rcases hostWrite_cases i v s with ⟨e, _⟩ | ⟨e, _⟩ | ⟨e, _⟩ | ⟨e, _⟩ | ⟨_, _, _, _, unchanged⟩
  · exact absurd e h0
  · exact absurd e h2
  · exact absurd e h3
  · exact absurd e h4
  · exact unchanged

/-- A write that leaves the state as it is answers, as an event, the same state. -/
theorem takeEvent_hostWrite_of_eq_self {i : Slot} {v : Word} {s : State} (h : hostWrite i v s = s) :
    takeEvent (.hostWrite i v) s = .next s :=
  congrArg Host.Outcome.next h

/-- Settles O7: a reserved slot is neither a register slot of R61 nor a written slot of R62. -/
theorem reservedSlotsReadZeroAndIgnoreWrites : Obligations.ReservedSlotsReadZeroAndIgnoreWrites := by
  intro s i v reserved
  have ignored : hostWrite i v s = s := by
    apply hostWrite_eq_self <;> rintro rfl <;> exact absurd reserved (by decide)
  exact ⟨hostRead_reserved reserved s, ignored, takeEvent_hostWrite_of_eq_self ignored⟩

end Sys2Proof.Machine
end

section
/-! PROOFS. The host port slot by slot: what a read returns (R61), what a write does (R62), the read-only registers (R63). -/
namespace Sys2Proof.Machine

/-- A host write by slot (R62), as one chain of conditions. -/
theorem hostWrite_eq_ite (i : Slot) (v : Word) (s : State) :
    hostWrite i v s =
      (if i = 0 then issueCommand v s else if i = 2 then s.setArg0 v else if i = 3 then s.setArg1 v
        else if i = 4 then s.setArg2 v else s) := by
  rcases hostWrite_cases i v s with ⟨rfl, issue⟩ | ⟨rfl, arg0⟩ | ⟨rfl, arg1⟩ | ⟨rfl, arg2⟩ | ⟨h0, h2, h3, h4, unchanged⟩
  · exact issue
  · exact arg0
  · exact arg1
  · exact arg2
  · simp [unchanged, h0, h2, h3, h4]

/-- A host read by slot (R61), as one chain of conditions. -/
theorem hostRead_eq_ite (i : Slot) (s : State) :
    hostRead i s =
      (if i = 0 then s.cmd else if i = 1 then s.status.word else if i = 2 then s.arg0 else if i = 3 then s.arg1
        else if i = 4 then s.arg2 else if i = 5 then s.result else if i = 6 then s.key.p else if i = 7 then s.key.q
        else if i = 8 then s.key.n else if i = 9 then s.key.phi else if i = 10 then s.key.e else if i = 11 then s.key.d
        else 0) := by
  rcases i with ⟨⟨n, below⟩⟩
  have slot : n < 16 := below
  interval_cases n <;> rfl

/-- Settles O4: the value is the row of R61's table, and the event records it in the model's own `rdata`, which is no part of the CORE. -/
theorem hostReadReturnsTheSlot : Obligations.HostReadReturnsTheSlot := by
  intro s i
  have recorded : takeEvent (.hostRead i) s = .next (s.setRdata (hostRead i s)) := rfl
  exact ⟨hostRead_eq_ite i s, _, recorded, by simp⟩

/-- Settles O5: the operand setters of R62's table each write their one field. -/
theorem hostWriteActsBySlot : Obligations.HostWriteActsBySlot :=
  fun s i v => hostWrite_eq_ite i v s

/-- Settles O6: a read-only slot is none of the slots that take a write, so the write event answers the same state. -/
theorem readOnlyRegistersIgnoreWrites : Obligations.ReadOnlyRegistersIgnoreWrites := by
  intro s i v readOnly
  have ignored : hostWrite i v s = s := by
    apply hostWrite_eq_self <;> rintro rfl <;> exact absurd readOnly (by decide)
  exact ⟨ignored, takeEvent_hostWrite_of_eq_self ignored⟩

end Sys2Proof.Machine
end

section
/-! PROOFS. The opcode map (R93): a word is its two fields (R91), and `decode` and `encode` are inverse on the eight commands. -/
namespace Sys2Proof

/-- Bits 31:4 of a word, as a number. -/
theorem toNat_zeroField (w : Word) : (zeroField w).toNat = w.toNat / 16 := by
  have below := w.isLt
  simp only [zeroField, BitVec.extractLsb'_toNat, Nat.shiftRight_eq_div_pow]
  omega

/-- Bits 3:0 of a word, as a number. -/
theorem toNat_opcodeField (w : Word) : (opcodeField w).toNat = w.toNat % 16 := by
  simp [opcodeField, BitVec.extractLsb'_toNat]

/-- The ZERO field of a word of format C is its upper part (R91). -/
@[simp] theorem zeroField_append (z : BitVec 28) (op : Opcode) : zeroField (z ++ op) = z :=
  BitVec.extractLsb'_append_eq_left

/-- The OPCODE field of a word of format C is its lower part (R91). -/
@[simp] theorem opcodeField_append (z : BitVec 28) (op : Opcode) : opcodeField (z ++ op) = op :=
  BitVec.extractLsb'_append_eq_right

/-- The two fields of format C make up the whole word: every bit of it is fixed by them (R91). -/
theorem zeroField_append_opcodeField (w : Word) : zeroField w ++ opcodeField w = w :=
  (BitVec.extractLsb'_append_extractLsb'_eq_extractLsb' rfl).trans BitVec.extractLsb'_eq_self

/-- A word is a command's word exactly when its fields are that word's fields. -/
theorem eq_encode_iff (w : Word) (i : Instr) : w = encode i ↔ zeroField w = 0 ∧ opcodeField w = opcodeOf i := by
  constructor
  · rintro rfl
    exact ⟨zeroField_append _ _, opcodeField_append _ _⟩
  · rintro ⟨zero, opcode⟩
    rw [← zeroField_append_opcodeField w, zero, opcode, encode]

/-- The two directions of the opcode map agree: an opcode selects a command exactly when it is that command's opcode (R93). -/
theorem instrOfOpcode_eq_some_iff (op : Opcode) (i : Instr) : instrOfOpcode op = some i ↔ op = opcodeOf i := by
  cases i <;> revert op <;> decide

/-- `decode` answers a command exactly when the ZERO field is clear and the opcode selects that command (R99). -/
theorem decode_eq_ok_iff (w : Word) (i : Instr) :
    decode w = .ok i ↔ zeroField w = 0 ∧ instrOfOpcode (opcodeField w) = some i := by
  unfold decode
  by_cases zero : zeroField w = 0#28
  · cases instrOfOpcode (opcodeField w) <;> simp [zero]
  · simp [zero]

/-- `decode` and `encode` are inverse (R93). -/
theorem decode_eq_ok_iff_eq_encode (w : Word) (i : Instr) : decode w = .ok i ↔ w = encode i := by
  rw [decode_eq_ok_iff, instrOfOpcode_eq_some_iff, eq_encode_iff]

/-- Settles O1: both sides fix the two fields of the word, and the opcode map is its own inverse on the eight commands. -/
theorem decodeAndEncodeAgree : Obligations.DecodeAndEncodeAgree :=
  ⟨decode_eq_ok_iff_eq_encode, rfl, rfl, rfl, rfl, rfl, rfl, rfl, rfl⟩

end Sys2Proof
end

section
/-! PROOFS. The legal words (R94): the two checks of R94 as a range of numbers, and the rejection of every other word in IDLE. -/
namespace Sys2Proof

/-- Bits 31:4 are clear exactly in the words below 16. -/
theorem zeroField_eq_zero_iff (w : Word) : zeroField w = 0 ↔ w.toNat < 16 := by
  rw [← BitVec.toNat_inj, toNat_zeroField]
  exact Nat.div_eq_zero_iff_lt (by decide)

/-- R94's `w[31:4] = 0`, written as a shift. -/
theorem ushiftRight_four_eq_zero_iff (w : Word) : w >>> 4 = 0 ↔ zeroField w = 0 := by
  rw [← BitVec.toNat_inj, ← BitVec.toNat_inj, toNat_zeroField, BitVec.toNat_ushiftRight, Nat.shiftRight_eq_div_pow]
  rfl

/-- The opcodes in use are 1 to 8, without a gap (R93). -/
theorem exists_instrOfOpcode_iff (op : Opcode) : (∃ i, instrOfOpcode op = some i) ↔ 1 ≤ op.toNat ∧ op.toNat ≤ 8 := by
  rw [← Option.isSome_iff_exists]
  revert op
  decide

/-- The two checks of R94. -/
theorem legalWord_iff (w : Word) :
    legalWord w = true ↔ zeroField w = 0 ∧ 1 ≤ (opcodeField w).toNat ∧ (opcodeField w).toNat ≤ 8 := by
  simp [legalWord, zeroFieldClear, opcodeInRange]

/-- The words that decode are the words that pass the two checks (R94, R99). -/
theorem exists_decode_iff_legalWord (w : Word) : (∃ i, decode w = .ok i) ↔ legalWord w = true := by
  simp only [decode_eq_ok_iff, exists_and_left, exists_instrOfOpcode_iff, legalWord_iff]

/-- The words that pass the two checks are `0x00000001` to `0x00000008` (R94). -/
theorem legalWord_iff_toNat (w : Word) : legalWord w = true ↔ 1 ≤ w.toNat ∧ w.toNat ≤ 8 := by
  rw [legalWord_iff, zeroField_eq_zero_iff, toNat_opcodeField]
  omega

end Sys2Proof

namespace Sys2Proof.Machine

/-- A word that fails the checks of R94, issued in IDLE, is rejected (R111, R112). -/
theorem issueCommand_illegal {w : Word} {s : State} (busy : s.status.busy = false) (fatal : s.status.fatal = false)
    (illegal : ¬ legalWord w = true) : issueCommand w s = rejectCommand s := by
  rcases issueCommand_cases w s with ⟨dead, _⟩ | ⟨_, running, _⟩ | ⟨_, _, _, rejected⟩ | ⟨_, _, decodes, _⟩
  · simp [fatal] at dead
  · simp [busy] at running
  · exact rejected
  · exact absurd ((exists_decode_iff_legalWord w).mp decodes) illegal

/-- Settles O2: `decode`, the two checks and the range 1 to 8 name the same words, and a word outside them is rejected in IDLE. -/
theorem legalWordsAreExactlyOneToEight : Obligations.LegalWordsAreExactlyOneToEight := by
  intro w
  refine ⟨?_, (exists_decode_iff_legalWord w).trans (legalWord_iff_toNat w), legalWord_iff_toNat w, ?_⟩
  · rw [exists_decode_iff_legalWord, legalWord_iff, ushiftRight_four_eq_zero_iff]
    rfl
  · intro s busy fatal outside
    have rejected : hostWrite 0 w s = rejectCommand s :=
      issueCommand_illegal busy fatal (mt (legalWord_iff_toNat w).mp outside)
    rw [rejected]
    exact ⟨busy, rfl, rfl⟩

end Sys2Proof.Machine
end

section
/-! PROOFS. Command issue (R111), one equation for each of its four outcomes, and what the events of a command's life do to the
condition and to CMDDROP (R112, R113, R117, R118). -/
namespace Sys2Proof.Machine

/-- An issue while DEAD is ignored (R118). -/
theorem issueCommand_dead {s : State} (fatal : s.status.fatal = true) (w : Word) : issueCommand w s = s := by
  simp [issueCommand, fatal]

/-- An issue while RUNNING is dropped, whatever the word (R117). -/
theorem issueCommand_running {s : State} (busy : s.status.busy = true) (fatal : s.status.fatal = false) (w : Word) :
    issueCommand w s = dropCommand s := by
  simp [issueCommand, busy, fatal]

/-- In IDLE a word that `decode` refuses is rejected (R112). -/
theorem issueCommand_rejected {s : State} {w : Word} {r : IllegalWord} (busy : s.status.busy = false)
    (fatal : s.status.fatal = false) (refused : decode w = .error r) : issueCommand w s = rejectCommand s := by
  simp [issueCommand, busy, fatal, refused]

/-- In IDLE a word that decodes is accepted (R113). -/
theorem issueCommand_accepted {s : State} {w : Word} {i : Instr} (busy : s.status.busy = false)
    (fatal : s.status.fatal = false) (decodes : decode w = .ok i) : issueCommand w s = acceptCommand w s := by
  simp [issueCommand, busy, fatal, decodes]

/-- A write to slot 0 is a command issue (R62). -/
theorem takeEvent_hostWrite_zero (w : Word) (s : State) : takeEvent (.hostWrite 0 w) s = .next (issueCommand w s) := rfl

/-- The CORE is RUNNING exactly when BUSY = 1 and FATAL = 0 (R110). -/
theorem condition_eq_running_iff (f : Status) : f.condition = .running ↔ f.fatal = false ∧ f.busy = true := by
  cases fatal : f.fatal <;> cases busy : f.busy <;> simp [Status.condition, fatal, busy]

/-- A host write to any slot but 0 leaves STATUS alone (R62). -/
theorem hostWrite_status {i : Slot} (notIssue : i ≠ 0) (v : Word) (s : State) : (hostWrite i v s).status = s.status := by
  rcases hostWrite_cases i v s with ⟨slot0, _⟩ | ⟨_, arg0⟩ | ⟨_, arg1⟩ | ⟨_, arg2⟩ | ⟨_, _, _, _, unchanged⟩
  · exact absurd slot0 notIssue
  · rw [arg0, setArg0_status]
  · rw [arg1, setArg1_status]
  · rw [arg2, setArg2_status]
  · rw [unchanged]

/-- An offered draw leaves STATUS alone, consumed or not (R75). -/
@[simp] theorem offerDraw_status (r : Draw) (s : State) : (offerDraw r s).status = s.status := by
  rcases offerDraw_cases r s with ⟨_, consumed⟩ | ⟨_, ignored⟩
  · rw [consumed, setDraws_status]
  · rw [ignored]

/-- The events by what they do to STATUS: only a command issue, the CORE's turn and reset can write it (R28). -/
theorem takeEvent_status_cases {ev : Event} {s t : State} (h : takeEvent ev s = .next t) :
    t.status = s.status ∨ (∃ w, ev = .hostWrite 0 w ∧ t = issueCommand w s) ∨
      (ev = .completion ∧ coreTurn s = .next t) ∨ ev = .reset := by
  rcases takeEvent_cases h with ⟨i, v, rfl, rfl⟩ | ⟨i, rfl, rfl⟩ | ⟨r, rfl, rfl⟩ | turn | ⟨reset, _⟩
  · by_cases issue : i = 0
    · subst issue
      exact .inr (.inl ⟨v, rfl, rfl⟩)
    · exact .inl (hostWrite_status issue v s)
  · exact .inl rfl
  · exact .inl (offerDraw_status r s)
  · exact .inr (.inr (.inl turn))
  · exact .inr (.inr (.inr reset))

/-- No completion writes CMDDROP (R28). -/
@[simp] theorem completionOf_cmddrop (i : Instr) (s : State) : (completionOf i s).status.cmddrop = s.status.cmddrop := by
  rcases completionOf_cases i s with ⟨_, _, v, result⟩ | ⟨_, inverse⟩ | ⟨_, _, zeroModulus⟩ | ⟨_, _, waits⟩ |
    ⟨_, e, _, failed⟩ | ⟨_, k, _, made⟩
  · rw [result]; rfl
  · rw [inverse]; rfl
  · rw [zeroModulus]; rfl
  · rw [waits]
  · rw [failed]; rfl
  · rw [made]; rfl

/-- The CORE's turn does not write CMDDROP. -/
theorem coreTurn_cmddrop {s t : State} (turn : coreTurn s = .next t) : t.status.cmddrop = s.status.cmddrop := by
  rcases coreTurn_cases turn with ⟨_, rfl⟩ | ⟨_, i, _, rfl⟩
  · rfl
  · exact completionOf_cmddrop i s

/-- While RUNNING, only the completion and reset end that condition (R113). -/
theorem takeEvent_keeps_running {ev : Event} {s t : State} (running : s.status.condition = .running)
    (h : takeEvent ev s = .next t) (notCompletion : ev ≠ .completion) (notReset : ev ≠ .reset) :
    t.status.condition = .running := by
  rcases takeEvent_status_cases h with kept | ⟨w, _, rfl⟩ | ⟨completion, _⟩ | reset
  · rw [kept, running]
  · have ⟨fatal, busy⟩ := (condition_eq_running_iff _).mp running
    rw [issueCommand_running busy fatal]
    exact running
  · exact absurd completion notCompletion
  · exact absurd reset notReset

/-- CMDDROP = 1 lasts until the next issue in IDLE or reset (R117). -/
theorem takeEvent_keeps_cmddrop {ev : Event} {s t : State} (drop : s.status.cmddrop = true) (h : takeEvent ev s = .next t) :
    t.status.cmddrop = true ∨ ev = .reset ∨
      ((∃ w, ev = .hostWrite 0 w) ∧ s.status.busy = false ∧ s.status.fatal = false) := by
  rcases takeEvent_status_cases h with kept | ⟨w, issue, rfl⟩ | ⟨_, turn⟩ | reset
  · exact .inl (by rw [kept, drop])
  · rcases issueCommand_cases w s with ⟨_, ignored⟩ | ⟨_, _, dropped⟩ | ⟨fatal, busy, _⟩ | ⟨fatal, busy, _⟩
    · exact .inl (by rw [ignored, drop])
    · exact .inl (by rw [dropped]; rfl)
    · exact .inr (.inr ⟨⟨w, issue⟩, busy, fatal⟩)
    · exact .inr (.inr ⟨⟨w, issue⟩, busy, fatal⟩)
  · exact .inl (by rw [coreTurn_cmddrop turn, drop])
  · exact .inr (.inl reset)

/-- Settles O20: an issue while RUNNING takes the second test of R111, and only the other two outcomes in IDLE clear CMDDROP. -/
theorem issueWhileRunningIsDropped : Obligations.IssueWhileRunningIsDropped :=
  ⟨fun _ w busy fatal => congrArg Host.Outcome.next (issueCommand_running busy fatal w), fun _ _ _ => takeEvent_keeps_cmddrop⟩

/-- Settles O16: the accepted state is written out by `acceptCommand`, and its FATAL is still 0, so it is RUNNING. -/
theorem acceptanceLatchesAndStartsTheCommand : Obligations.AcceptanceLatchesAndStartsTheCommand := by
  refine ⟨fun s w i busy fatal decodes => ⟨acceptCommand w s, ?_, ?_⟩, fun _ _ _ => takeEvent_keeps_running⟩
  · rw [takeEvent_hostWrite_zero, issueCommand_accepted busy fatal decodes]
  · have running : (acceptCommand w s).status.condition = .running := (condition_eq_running_iff _).mpr ⟨fatal, rfl⟩
    exact ⟨rfl, rfl, rfl, running, rfl, rfl, rfl, rfl, rfl, rfl, rfl⟩

/-- Settles O18: a rejection writes STATUS alone. -/
theorem illegalWordIsRejected : Obligations.IllegalWordIsRejected := by
  intro s w r busy fatal refused
  refine ⟨rejectCommand s, ?_, rfl, busy, rfl, rfl, rfl, rfl, rfl, rfl, rfl, rfl, rfl, rfl⟩
  rw [takeEvent_hostWrite_zero, issueCommand_rejected busy fatal refused]

/-- Settles O21: FATAL is the first test of R111. -/
theorem issueWhileDeadIsIgnored : Obligations.IssueWhileDeadIsIgnored :=
  fun _ w fatal => takeEvent_hostWrite_of_eq_self (issueCommand_dead fatal w)

end Sys2Proof.Machine
end

section
/-! PROOFS. The operands of a command in progress are its latches (R114): a completion commutes with every write of the operand
registers. -/
namespace Sys2Proof.Machine

/-- Write the three operand registers, slots 2 to 4. -/
def State.setArgs (a b c : Word) (s : State) : State := ((s.setArg0 a).setArg1 b).setArg2 c

section
variable (a b c : Word) (s : State)

@[simp] theorem setArgs_status : (s.setArgs a b c).status = s.status := rfl
@[simp] theorem setArgs_draws : (s.setArgs a b c).draws = s.draws := rfl
@[simp] theorem operand0_setArgs : operand0 (s.setArgs a b c) = operand0 s := rfl
@[simp] theorem operand1_setArgs : operand1 (s.setArgs a b c) = operand1 s := rfl
@[simp] theorem operand2_setArgs : operand2 (s.setArgs a b c) = operand2 s := rfl

/-- The completion of MODPOW, ENCRYPT and DECRYPT takes its operands from the latches, with either outcome of `ModPow`. -/
theorem completePower_setArgs : completePower (s.setArgs a b c) = (completePower s).setArgs a b c := by
  unfold completePower
  rw [operand0_setArgs, operand1_setArgs, operand2_setArgs]
  cases modPow (operand0 s) (operand1 s) (operand2 s) <;> rfl

/-- The completion of GENKEY reads the consumed draws alone, whatever they settle. -/
theorem completeGenkey_setArgs : completeGenkey (s.setArgs a b c) = (completeGenkey s).setArgs a b c := by
  unfold completeGenkey
  rw [setArgs_draws]
  cases generateKeyPair s.draws <;> rfl

/-- A completion neither reads nor writes the operand registers. -/
theorem completionOf_setArgs (i : Instr) : completionOf i (s.setArgs a b c) = (completionOf i s).setArgs a b c := by
  cases i
  case isprime | gcd | modinv | finde => rfl
  case modpow | encrypt | decrypt => exact completePower_setArgs a b c s
  case genkey => exact completeGenkey_setArgs a b c s

/-- The meaning of a command commutes with a write of the operand registers, while BUSY = 0 as well. -/
theorem exec_setArgs {i : Instr} {s t : State} (h : exec i s = .next t) :
    exec i (s.setArgs a b c) = .next (t.setArgs a b c) := by
  rw [exec_eq, whenRunning_eq, Host.Outcome.next.injEq] at h ⊢
  rw [setArgs_status, completionOf_setArgs, ← apply_ite (State.setArgs a b c), h]

end

/-- Settles O17: the acceptance copies the operand registers to the latches, and every completion commutes with writing them after. -/
theorem operandsAreReadFromTheLatchesOnly : Obligations.OperandsAreReadFromTheLatchesOnly := by
  refine ⟨fun s w i busy fatal decodes => ?_, fun i s t a b c answers => exec_setArgs a b c answers⟩
  have accepted : hostWrite 0 w s = acceptCommand w s := issueCommand_accepted busy fatal decodes
  rw [accepted]
  rfl

end Sys2Proof.Machine
end

section
/-! PROOFS. The extended Euclidean inverse (R134): its value on every row of R136, and the word that carries it (R31). -/
namespace Sys2Proof.Machine

/-- `Gcd` is the greatest common divisor (R132). -/
theorem euclidGcd_eq_gcd (a b : Nat) : euclidGcd a b = Nat.gcd a b :=
  euclidLoop_eq_gcd b a b le_rfl

/-- Without coprimality there is no inverse (R136, first row). -/
theorem modInverse_of_not_coprime {a m : Nat} (h : Nat.gcd a m ≠ 1) : modInverse a m = -1 := by
  rw [modInverse, euclidGcd_eq_gcd, if_pos h]

/-- With coprimality the result is the loop's final coefficient, moved up by `m` when it is negative (R134). -/
theorem modInverse_of_coprime {a m : Nat} (h : Nat.gcd a m = 1) :
    modInverse a m =
      if inverseLoop (m + 1) a m 0 1 < 0 then inverseLoop (m + 1) a m 0 1 + m else inverseLoop (m + 1) a m 0 1 := by
  rw [modInverse, euclidGcd_eq_gcd, if_neg (not_not.mpr h)]

/-- The loop is not entered while the current remainder is at most 1 (R134). -/
theorem inverseLoop_of_le_one {a : Nat} (h : a ≤ 1) (fuel m : Nat) (x0 x1 : Int) : inverseLoop fuel a m x0 x1 = x1 := by
  cases fuel with
  | zero => rfl
  | succ fuel => rw [inverseLoop, if_neg (by omega)]

/-- With a first operand of at most 1 the inverse, where there is one, is 1 (R136, last three rows). -/
theorem modInverse_of_le_one {a m : Nat} (h : Nat.gcd a m = 1) (ha : a ≤ 1) : modInverse a m = 1 := by
  rw [modInverse_of_coprime h, inverseLoop_of_le_one ha, if_neg (by decide)]

/-- Modulo 1 the loop runs one round and ends with the coefficient 0 (R136, third row). -/
theorem modInverse_one_right {a : Nat} (h : 2 ≤ a) : modInverse a 1 = 0 := by
  have loop : inverseLoop 2 a 1 0 1 = 0 := by
    rw [inverseLoop, if_pos (by omega), inverseLoop_of_le_one le_rfl]
  rw [modInverse_of_coprime (Nat.gcd_one_right a), loop, if_neg (lt_irrefl 0)]

section
variable {a m : Nat} (hm : 2 ≤ m) (coprime : Nat.gcd a m = 1)
include hm coprime

/-- From R134's initial values the final coefficient inverts `a` modulo `m`, and is below `m` in magnitude. -/
theorem inverseLoop_initial :
    (m : Int) ∣ inverseLoop (m + 1) a m 0 1 * a - 1 ∧
      -(m : Int) < inverseLoop (m + 1) a m 0 1 ∧ inverseLoop (m + 1) a m 0 1 < m := by
  have ha : 1 ≤ a := Nat.pos_of_ne_zero <| by
    rintro rfl
    rw [Nat.gcd_zero_left] at coprime
    omega
  obtain ⟨inverts, bound⟩ := inverseLoop_spec a m (m + 1) a m 0 1 1 (by omega) ha coprime (.inl rfl) (by simp) (by simp)
    (by simp) (by simp) (by simp)
  refine ⟨inverts, ?_⟩
  rcases bound with ⟨unchanged, _⟩ | half
  · omega
  · exact abs_lt.mp (by omega)

/-- One conditional addition brings the coefficient into `[1, m)`, where it still inverts `a` (R136, second row). -/
theorem modInverse_spec :
    1 ≤ modInverse a m ∧ modInverse a m < m ∧ ((a : Int) * modInverse a m) % m = 1 := by
  obtain ⟨inverts, lower, upper⟩ := inverseLoop_initial hm coprime
  rw [modInverse_of_coprime coprime]
  generalize inverseLoop (m + 1) a m 0 1 = r at inverts lower upper ⊢
  have emod_one : ∀ v : Int, (m : Int) ∣ v * a - 1 → ((a : Int) * v) % m = 1 := fun v h => by
    rw [mul_comm, Int.emod_eq_emod_iff_emod_sub_eq_zero.mpr (Int.emod_eq_zero_of_dvd h)]
    exact Int.emod_eq_of_lt (by decide) (by omega)
  split
  case isTrue negative =>
    have shifted : (m : Int) ∣ (r + m) * a - 1 := by
      rw [show (r + m) * a - 1 = (r * a - 1) + m * a by ring]
      exact dvd_add inverts (dvd_mul_right _ _)
    exact ⟨by omega, by omega, emod_one _ shifted⟩
  case isFalse nonneg =>
    have ne_zero : r ≠ 0 := by
      rintro rfl
      have := emod_one 0 inverts
      simp at this
    exact ⟨by omega, upper, emod_one _ inverts⟩

end

/-- Two inverses of `a` in `[1, m)` are equal: each is congruent to the product of `a` with both. -/
theorem inverse_unique {a m v w : Int} (hv : 1 ≤ v) (hvm : v < m) (hw : 1 ≤ w) (hwm : w < m)
    (invV : (a * v) % m = 1) (invW : (a * w) % m = 1) : v = w := by
  have one : (1 : Int) % m = 1 := Int.emod_eq_of_lt (by decide) (by omega)
  have congrV : a * v ≡ 1 [ZMOD m] := invV.trans one.symm
  have congrW : a * w ≡ 1 [ZMOD m] := invW.trans one.symm
  have congr : v ≡ w [ZMOD m] :=
    calc v = 1 * v := (one_mul v).symm
      _ ≡ a * w * v [ZMOD m] := congrW.symm.mul_right v
      _ = a * v * w := by ring
      _ ≡ 1 * w [ZMOD m] := congrV.mul_right w
      _ = w := one_mul w
  calc v = v % m := (Int.emod_eq_of_lt (by omega) hvm).symm
    _ = w % m := congr
    _ = w := Int.emod_eq_of_lt (by omega) hwm

/-- The result of `ModInverse` is the value of its operands' row of R136. -/
theorem isInverseValue_modInverse (a m : Nat) : IsInverseValue a m (modInverse a m) := by
  by_cases coprime : Nat.gcd a m = 1
  · obtain rfl | rfl | hm : m = 0 ∨ m = 1 ∨ 2 ≤ m := by omega
    · obtain rfl : a = 1 := by simpa using coprime
      exact .inr (.inr (.inr (.inr ⟨rfl, rfl, modInverse_of_le_one coprime le_rfl⟩)))
    · rcases Nat.lt_or_ge 1 a with ha | ha
      · exact .inr (.inr (.inl ⟨rfl, ha, modInverse_one_right ha⟩))
      · exact .inr (.inr (.inr (.inl ⟨rfl, ha, modInverse_of_le_one coprime ha⟩)))
    · exact .inr (.inl ⟨hm, coprime, modInverse_spec hm coprime⟩)
  · exact .inl ⟨coprime, modInverse_of_not_coprime coprime⟩

/-- A value of R136 is the sentinel, or lies between 0 and the larger of `m - 1` and 1. -/
theorem IsInverseValue.eq_neg_one_or_bounded {a m : Nat} {v : Int} (h : IsInverseValue a m v) :
    v = -1 ∨ (0 ≤ v ∧ (v < m ∨ v = 1)) := by
  rcases h with ⟨_, sentinel⟩ | ⟨_, _, lower, upper, _⟩ | ⟨rfl, _, zero⟩ | ⟨_, _, one⟩ | ⟨_, _, one⟩ <;> omega

/-- The 32-bit image of a value in `[0, 2^32)` is that value (R31). -/
theorem toNat_inverseResult {v : Int} (lower : 0 ≤ v) (upper : v < 2 ^ 32) : ((inverseResult v).toNat : Int) = v := by
  rw [inverseResult, BitVec.toNat_ofInt]
  omega

/-- The sentinel's pattern carries no true result (R31, R136). -/
theorem inverseResult_eq_sentinel_iff {a m : Nat} {v : Int} (hm : m < 2 ^ 32) (h : IsInverseValue a m v) :
    inverseResult v = 0xFFFFFFFF ↔ v = -1 := by
  constructor
  · intro pattern
    rcases h.eq_neg_one_or_bounded with sentinel | ⟨lower, upper⟩
    · exact sentinel
    · have image : ((inverseResult v).toNat : Int) = v := toNat_inverseResult lower (by omega)
      rw [pattern] at image
      change (4294967295 : Int) = v at image
      omega
  · rintro rfl
    rfl

/-- Settles O30: the rows of R136 one by one, with the loop's bound; the sentinel's word follows from the rows. -/
theorem modInverseValues : Obligations.ModInverseValues := by
  refine ⟨fun a m => modInverse_of_not_coprime, fun a m hm coprime => ?_, fun a => modInverse_one_right,
    modInverse_of_le_one rfl le_rfl, modInverse_of_le_one rfl (Nat.zero_le 1), modInverse_of_le_one rfl le_rfl,
    fun a m hm coprime => (inverseLoop_initial hm coprime).2,
    fun a m _ hm => inverseResult_eq_sentinel_iff hm (isInverseValue_modInverse a m)⟩
  obtain ⟨lower, upper, inverts⟩ := modInverse_spec hm coprime
  exact ⟨lower, upper, inverts, fun v hv hvm inv => inverse_unique hv hvm lower upper inv inverts⟩

end Sys2Proof.Machine
end

section
/-! PROOFS. The modular power (R150, R152, R154). -/
namespace Sys2Proof.Machine

/-- A zero modulus raises DivideByZero before the loop is entered (R152). -/
theorem modPow_zero (base exp : Nat) : modPow base exp 0 = .error .divideByZero := rfl

/-- The loop of `ModPow` computes the value of R154: it is congruent to the power, and reduced unless no exponent bit is set. -/
theorem powLoop_eq_powerValue {modulus : Nat} (positive : 0 < modulus) (base exp : Nat) :
    powLoop modulus exp 1 (base % modulus) exp = powerValue base exp modulus := by
  unfold powerValue
  split
  case isTrue noReduction =>
    obtain ⟨-, rfl⟩ := noReduction
    rfl
  case isFalse reduces =>
    have congruent : powLoop modulus exp 1 (base % modulus) exp ≡ base ^ exp [MOD modulus] := by
      have invariant := powLoop_modEq modulus exp 1 (base % modulus) exp le_rfl
      rw [one_mul] at invariant
      exact invariant.trans ((Nat.mod_modEq base modulus).pow exp)
    have reduced : powLoop modulus exp 1 (base % modulus) exp < modulus :=
      powLoop_lt modulus positive exp 1 (base % modulus) exp le_rfl (by omega)
    exact (Nat.mod_eq_of_lt reduced).symm.trans congruent

/-- `ModPow` answers the value of R154 for every modulus that is not zero. -/
theorem modPow_eq_powerValue {modulus : Nat} (positive : 0 < modulus) (base exp : Nat) :
    modPow base exp modulus = .ok (powerValue base exp modulus) := by
  rw [modPow, if_neg positive.ne', powLoop_eq_powerValue positive]

/-- With a modulus of at least 2 the value of R154 is the reduced power. -/
theorem powerValue_of_two_le {modulus : Nat} (h : 2 ≤ modulus) (base exp : Nat) :
    powerValue base exp modulus = base ^ exp % modulus :=
  if_neg (by omega)

/-- With modulus 1 and a positive exponent the value of R154 is 0. -/
theorem powerValue_one_of_pos {exp : Nat} (h : 1 ≤ exp) (base : Nat) : powerValue base exp 1 = 0 := by
  rw [powerValue, if_neg (by omega), Nat.mod_one]

/-- The bound of R154: only the value 1 at modulus 1 is not below the modulus. -/
theorem powerValue_lt_max {modulus : Nat} (positive : 0 < modulus) (base exp : Nat) :
    powerValue base exp modulus < max modulus 2 := by
  unfold powerValue
  split
  case isTrue => exact lt_max_of_lt_right one_lt_two
  case isFalse => exact lt_max_of_lt_left (Nat.mod_lt _ positive)

/-- Whatever `ModPow` answers is below `max(modulus, 2)` (R154); with a zero modulus it answers nothing. -/
theorem modPow_ok_lt_max {base exp modulus v : Nat} (answers : modPow base exp modulus = .ok v) : v < max modulus 2 := by
  rcases Nat.eq_zero_or_pos modulus with rfl | positive
  · rw [modPow_zero] at answers
    cases answers
  · rw [modPow_eq_powerValue positive, Except.ok.injEq] at answers
    exact answers ▸ powerValue_lt_max positive base exp

/-- Settles O32: `ModPow` is `powerValue`, whose rows and bound are R154's. -/
theorem modPowValues : Obligations.ModPowValues := by
  refine ⟨fun base exp modulus h => ?_, fun base exp h => ?_, fun base => rfl, fun base exp modulus v => modPow_ok_lt_max,
    fun base exp modulus v word answers => ?_⟩
  · rw [modPow_eq_powerValue (by omega), powerValue_of_two_le h]
  · rw [modPow_eq_powerValue one_pos, powerValue_one_of_pos h]
  · exact (modPow_ok_lt_max answers).trans (max_lt word (by decide))

end Sys2Proof.Machine
end

section
/-! PROOFS. DivideByZero (R192): the error completion of a zero modulus, and the word STATUS then reads (R22, R27). -/
namespace Sys2Proof.Machine

/-- A concatenation as a number: the upper part weighted by the width of the lower one. -/
theorem toNat_append_eq_add {n m : Nat} (x : BitVec n) (y : BitVec m) : (x ++ y).toNat = 2 ^ m * x.toNat + y.toNat := by
  rw [BitVec.toNat_append, ← Nat.shiftLeft_add_eq_or_of_lt y.isLt, Nat.shiftLeft_eq, mul_comm]

/-- The STATUS word as a number: each flag has the weight of its bit, ERRCODE that of bit 8 (R27). -/
theorem toNat_statusWord (f : Status) :
    f.word.toNat = f.busy.toNat + 2 * f.done.toNat + 4 * f.err.toNat + 8 * f.noinv.toNat + 16 * f.fatal.toNat +
      32 * f.keyvalid.toNat + 64 * f.cmddrop.toNat + 256 * f.errcode.toNat := by
  simp only [Status.word, toNat_append_eq_add, BitVec.toNat_ofBool, BitVec.ofNat_eq_ofNat, BitVec.toNat_zero]
  omega

/-- The STATUS word after an error other than InvariantViolation (R192, R193): DONE, ERR and the code, with KEYVALID and CMDDROP as
they were. -/
theorem toNat_statusWord_failed {e : ErrorKind} {f : Status} (notFatal : e ≠ .invariantViolation) (noinv : f.noinv = false)
    (fatal : f.fatal = false) :
    (f.failed e).word.toNat =
      6 + 256 * (errorCode e).toNat + (if f.keyvalid = true then 0x20 else 0) + (if f.cmddrop = true then 0x40 else 0) := by
  have noFatal : (f.failed e).fatal = false := by simp [fatal, notFatal]
  rw [toNat_statusWord, noFatal, failed_busy, failed_done, failed_err, failed_noinv, noinv, failed_keyvalid, failed_cmddrop,
    failed_errcode]
  cases f.keyvalid <;> cases f.cmddrop <;> simp <;> omega

/-- MODPOW, ENCRYPT and DECRYPT with OP2 = 0 end in DivideByZero (R152). -/
theorem completionOf_zeroModulus {i : Instr} {s : State} (power : i = .modpow ∨ i = .encrypt ∨ i = .decrypt)
    (zero : operand2 s = 0) : completionOf i s = raiseError .divideByZero s := by
  rcases completePower_cases s with ⟨_, raised⟩ | ⟨nonzero, _⟩
  · rcases power with rfl | rfl | rfl <;> exact raised
  · exact absurd zero nonzero

/-- GCD, MODINV and FINDE raise nothing: ERR and ERRCODE are as the acceptance left them (R192). -/
theorem completionOf_keeps_error {i : Instr} (raisesNothing : i = .gcd ∨ i = .modinv ∨ i = .finde) (s : State) :
    (completionOf i s).status.err = s.status.err ∧ (completionOf i s).status.errcode = s.status.errcode := by
  rcases raisesNothing with rfl | rfl | rfl <;> exact ⟨rfl, rfl⟩

/-- Settles O33: a zero OP2 takes the error completion, which writes STATUS alone; the other three commands have none. -/
theorem zeroModulusRaisesDivideByZero : Obligations.ZeroModulusRaisesDivideByZero := by
  refine ⟨modPow_zero, fun i s power busy zero => ?_, fun i s raisesNothing busy => ?_⟩
  · have zeroOperand : operand2 s = 0 := congrArg BitVec.toNat zero
    have answers : exec i s = .next (raiseError .divideByZero s) := by
      rw [exec_eq, whenRunning_busy _ _ busy, completionOf_zeroModulus power zeroOperand]
    have status : s.status.failed .divideByZero = { s.status with busy := false, done := true, err := true, errcode := 2 } := by
      simp [Status.failed, Status.completed, errorCode]
    exact ⟨_, answers, status, rfl, rfl, ⟨rfl, rfl, rfl, rfl, rfl, rfl⟩, toNat_statusWord_failed (by decide)⟩
  · exact ⟨completionOf i s, by rw [exec_eq, whenRunning_busy _ _ busy], completionOf_keeps_error raisesNothing s⟩

end Sys2Proof.Machine
end

section
/-! PROOFS. The key-pair generator as a function of the draws (R161, R162, R164): the prime table, what a list of draws selects, and the
KeyPair of two distinct primes of the table. -/
namespace Sys2Proof.Machine

/-- The primes of the scan of R161. -/
theorem filter_isPrime_scan :
    (List.range' 2 99).filter isPrime = candidatePrimes ++ [53, 59, 61, 67, 71, 73, 79, 83, 89, 97] := by decide

/-- `BuildPrimeTable()` is the list of R162: the restriction keeps the scan's primes up to 50. -/
theorem primeTable_eq : primeTable = candidatePrimes :=
  calc primeTable = ((List.range' 2 99).filter isPrime).filter (fun k => decide (k ≤ 50)) := by
        rw [List.filter_filter, primeTable]
        exact List.filter_congr fun k _ => Bool.and_comm _ _
    _ = candidatePrimes := by rw [filter_isPrime_scan]; decide

/-- Settles O37: the scan's primes, and those of them that the restriction keeps. -/
theorem primeTableIsTheFifteenPrimes : Obligations.PrimeTableIsTheFifteenPrimes :=
  ⟨primeTable_eq, filter_isPrime_scan⟩

/-- The table has no repeated entry, so distinct draws select distinct values (R164). -/
theorem primeAt_inj {r r' : Draw} : primeAt primeTable r = primeAt primeTable r' ↔ r = r' := by
  rw [primeTable_eq]
  revert r r'
  decide

/-- Every draw but 15 selects an entry of the table (R164). -/
theorem primeAt_mem {r : Draw} (h : r ≠ 15) : primeAt primeTable r ∈ candidatePrimes := by
  rw [primeTable_eq]
  revert r
  decide

section
variable {r0 : Draw} (inTable : r0 ≠ 15) (n : Nat)
include inTable

/-- Draws that repeat the index of `p` are resampled: only what follows them decides (step 3 of R164). -/
theorem selectQ_replicate_append (tab : List Nat) (rest : List Draw) :
    selectQ tab (primeAt tab r0) (List.replicate n r0 ++ rest) = selectQ tab (primeAt tab r0) rest := by
  induction n with
  | zero => rfl
  | succ n ih =>
    rw [List.replicate_succ, List.cons_append, selectQ, if_neg inTable, if_neg (not_not.mpr rfl), ih]

/-- The first draw chooses `p`, its repetitions are skipped, and the rest is step 3 of R164. -/
theorem selectPrimes_cons_replicate_append (tab : List Nat) (rest : List Draw) :
    selectPrimes tab (r0 :: (List.replicate n r0 ++ rest)) = selectQ tab (primeAt tab r0) rest := by
  rw [selectPrimes, if_neg inTable, selectQ_replicate_append inTable]

/-- A draw in the table that differs from the first one decides, whatever might follow it (R164). -/
theorem selectPrimes_deciding {rk : Draw} (rkInTable : rk ≠ 15) (differs : rk ≠ r0) (later : List Draw) :
    selectPrimes primeTable (r0 :: (List.replicate n r0 ++ rk :: later)) =
      .chosen (primeAt primeTable r0) (primeAt primeTable rk) := by
  rw [selectPrimes_cons_replicate_append inTable, selectQ, if_neg rkInTable, if_pos (primeAt_inj.not.mpr differs)]

/-- A draw of 15 after repetitions of the first one ends the selection (R164). -/
theorem selectPrimes_outOfRange (tab : List Nat) (later : List Draw) :
    selectPrimes tab (r0 :: (List.replicate n r0 ++ 15 :: later)) = .outOfRange := by
  rw [selectPrimes_cons_replicate_append inTable, selectQ, if_pos rfl]

/-- While every draw repeats the first one, another is needed (R166). -/
theorem selectPrimes_replicate (tab : List Nat) : selectPrimes tab (List.replicate n r0) = .waiting := by
  cases n with
  | zero => rfl
  | succ n =>
    rw [List.replicate_succ, ← List.append_nil (List.replicate n r0), selectPrimes_cons_replicate_append inTable, selectQ]

end

/-- A first draw of 15 ends the selection, whatever might follow it (R164). -/
theorem selectPrimes_fifteen (tab : List Nat) (later : List Draw) : selectPrimes tab (15 :: later) = .outOfRange := by
  rw [selectPrimes, if_pos rfl]

/-- Once the draws decide, no further draw is requested (R75). -/
theorem rndReq_eq_false {s : State} {sel : Selection} (selected : selectPrimes primeTable s.draws = sel)
    (decided : sel ≠ .waiting) : rndReq s = false := by
  rw [rndReq, selected, beq_false_of_ne decided, Bool.and_false]

/-- Draws that select no prime for want of a table entry raise RngRange (R164). -/
theorem generateKeyPair_outOfRange {draws : List Draw} (h : selectPrimes primeTable draws = .outOfRange) :
    generateKeyPair draws = .failed .rngRange := by
  rw [generateKeyPair, h]

/-- The six integers that steps 4 to 7 of R164 compute from two primes. -/
def keyPairOf (p q : Nat) : KeyPair where
  p := p
  q := q
  n := p * q
  phi := (p - 1) * (q - 1)
  e := findValidE ((p - 1) * (q - 1))
  d := (modInverse (findValidE ((p - 1) * (q - 1))) ((p - 1) * (q - 1))).toNat

/-- Steps 4 to 7 of R164: the one thing that can go wrong is an exponent without an inverse (R167). -/
theorem deriveKey_eq_ite (p q : Nat) :
    deriveKey p q =
      if modInverse (keyPairOf p q).e (keyPairOf p q).phi = -1 then .failed .invariantViolation
      else .made (keyPairOf p q) := rfl

/-- The exponent is coprime to a positive `phi` below 65537: the scan found it so, or it is the fallback, a prime above `phi` (R160). -/
theorem gcd_findValidE {phi : Nat} (positive : 0 < phi) (below : phi < 65537) : Nat.gcd (findValidE phi) phi = 1 := by
  rcases exponentScan_spec phi phi Config.eStart (by omega) with ⟨_, _, _, coprime, _⟩ | ⟨fallback, _⟩
  · exact coprime
  · have prime : Nat.Prime 65537 := by norm_num
    rw [findValidE, fallback]
    exact Nat.coprime_of_lt_prime positive.ne' below prime

/-- The exponent is the fallback or below `phi` (R160). -/
theorem findValidE_le {phi : Nat} (below : phi < 65537) : findValidE phi ≤ 65537 := by
  rcases exponentScan_spec phi phi Config.eStart (by omega) with ⟨_, lt, _⟩ | ⟨fallback, _⟩
  · exact (lt.trans below).le
  · exact fallback.le

/-- The bounds of R168 (a) on the products of two distinct entries of the table. -/
theorem candidatePrimes_bounds :
    ∀ p ∈ candidatePrimes, ∀ q ∈ candidatePrimes, p ≠ q →
      p * q ≤ 2021 ∧ 2 ≤ (p - 1) * (q - 1) ∧ (p - 1) * (q - 1) ≤ 1932 := by decide

section
variable {p q : Nat} (hp : p ∈ candidatePrimes) (hq : q ∈ candidatePrimes) (distinct : p ≠ q)
include hp hq distinct

/-- For two distinct primes of the table the exponent has an inverse, in `[1, phi)` (R168 (c), (d)). -/
theorem modInverse_keyPairOf :
    1 ≤ modInverse (keyPairOf p q).e (keyPairOf p q).phi ∧
      modInverse (keyPairOf p q).e (keyPairOf p q).phi < (keyPairOf p q).phi := by
  obtain ⟨-, lower, upper⟩ := candidatePrimes_bounds p hp q hq distinct
  obtain ⟨positive, below, -⟩ := modInverse_spec lower (gcd_findValidE (by omega) (by omega))
  exact ⟨positive, below⟩

/-- Two distinct primes of the table always make a KeyPair (R168 (d)). -/
theorem deriveKey_eq_made : deriveKey p q = .made (keyPairOf p q) := by
  have positive := (modInverse_keyPairOf hp hq distinct).1
  rw [deriveKey_eq_ite, if_neg (by omega)]

/-- The KeyPair's `d` is the inverse itself: nothing is lost in making it a natural number. -/
theorem natCast_keyPairOf_d : ((keyPairOf p q).d : Int) = modInverse (keyPairOf p q).e (keyPairOf p q).phi :=
  Int.toNat_of_nonneg (zero_le_one.trans (modInverse_keyPairOf hp hq distinct).1)

/-- The bounds of R164 on the values of the KeyPair. -/
theorem keyPairOf_bounds :
    (keyPairOf p q).n ≤ 2021 ∧ (keyPairOf p q).phi ≤ 1932 ∧ (keyPairOf p q).e ≤ 65537 ∧
      (keyPairOf p q).d < (keyPairOf p q).phi := by
  obtain ⟨nBound, -, phiBound⟩ := candidatePrimes_bounds p hp q hq distinct
  have dBelow : ((keyPairOf p q).d : Int) < (keyPairOf p q).phi := by
    rw [natCast_keyPairOf_d hp hq distinct]
    exact (modInverse_keyPairOf hp hq distinct).2
  exact ⟨nBound, phiBound, findValidE_le (by omega), Int.ofNat_lt.mp dBelow⟩

end

/-- The deciding draws make the KeyPair of the two entries they select (R164). -/
theorem generateKeyPair_deciding {r0 rk : Draw} (inTable : r0 ≠ 15) (rkInTable : rk ≠ 15) (differs : rk ≠ r0) (n : Nat)
    (later : List Draw) :
    generateKeyPair (r0 :: (List.replicate n r0 ++ rk :: later)) =
      .made (keyPairOf (primeAt primeTable r0) (primeAt primeTable rk)) := by
  rw [generateKeyPair, selectPrimes_deciding inTable n rkInTable differs later]
  exact deriveKey_eq_made (primeAt_mem inTable) (primeAt_mem rkInTable) (primeAt_inj.not.mpr differs.symm)

/-- Settles O38: the draws select two primes, nothing or an error; distinct primes of the table have an exponent that is coprime to `phi`,
and so an inverse. -/
theorem generatorOutcomeByDraws : Obligations.GeneratorOutcomeByDraws := by
  refine ⟨fun r0 rk n later inTable rkInTable differs => ⟨?_, fun s draws => ?_⟩,
    fun later => generateKeyPair_outOfRange (selectPrimes_fifteen _ later),
    fun s draws => rndReq_eq_false (draws ▸ selectPrimes_fifteen _ []) (by decide),
    fun r0 n later inTable => ⟨generateKeyPair_outOfRange (selectPrimes_outOfRange inTable n _ later), fun s draws => ?_⟩,
    fun r0 n inTable => ?_, fun p q noInverse => (deriveKey_eq_ite p q).trans (if_pos noInverse)⟩
  · have hp := primeAt_mem inTable
    have hq := primeAt_mem rkInTable
    have distinct := primeAt_inj.not.mpr differs.symm
    exact ⟨_, generateKeyPair_deciding inTable rkInTable differs n later, by rw [← primeTable_eq]; rfl,
      by rw [← primeTable_eq]; rfl, distinct, rfl, rfl, rfl, natCast_keyPairOf_d hp hq distinct,
      keyPairOf_bounds hp hq distinct⟩
  · exact rndReq_eq_false (draws ▸ selectPrimes_deciding inTable n rkInTable differs []) Selection.noConfusion
  · exact rndReq_eq_false (draws ▸ selectPrimes_outOfRange inTable n _ []) Selection.noConfusion
  · rw [generateKeyPair, selectPrimes_replicate inTable]

end Sys2Proof.Machine
end

section
/-! PROOFS. How an error reaches STATUS (60_exceptions.md): IllegalCommand at the issue itself (R191), the other three by the error
completion (R195). -/
namespace Sys2Proof.Machine

/-- The STATUS word after an IllegalCommand in IDLE (R191): DONE, ERR and code 1, with KEYVALID as it was. -/
theorem toNat_statusWord_rejected {f : Status} (busy : f.busy = false) (fatal : f.fatal = false) :
    f.rejected.word.toNat = 0x106 + (if f.keyvalid = true then 0x20 else 0) := by
  rw [toNat_statusWord, rejected_busy, busy, rejected_done, rejected_err, rejected_noinv, rejected_fatal, fatal, rejected_keyvalid,
    rejected_cmddrop, rejected_errcode]
  cases f.keyvalid <;> rfl

/-- Settles O19: the conditions of an issue are exclusive, and an illegal word has one outcome in each: rejection in IDLE, the drop while
RUNNING, nothing while DEAD. -/
theorem illegalCommandIsReportedInStatus : Obligations.IllegalCommandIsReportedInStatus := by
  intro s w r refused
  refine ⟨fun busy fatal => ?_, fun busy fatal => issueCommand_running busy fatal w, fun fatal => issueCommand_dead fatal w⟩
  have rejected : hostWrite 0 w s = rejectCommand s := issueCommand_rejected busy fatal refused
  rw [rejected]
  exact ⟨rfl, busy, toNat_statusWord_rejected busy fatal⟩

/-- While a command is in progress NOINV is 0, as R195 says: a reported sentinel has DONE = 1 (R29 (c)), which BUSY = 1 excludes
(R29 (a)). -/
theorem noinv_eq_false_of_busy {s : State} (exclusive : BusyDoneExclusive s) (sentinel : SentinelReported s)
    (busy : s.status.busy = true) : s.status.noinv = false := by
  refine Bool.eq_false_iff.mpr fun noinv => ?_
  obtain ⟨done, -⟩ := sentinel noinv
  exact exclusive ⟨busy, done⟩

/-- The flags after an error completion are those R195 names; ERRCODE is the code of R190. -/
theorem raiseError_status (e : ErrorKind) (s : State) :
    (raiseError e s).status =
      { s.status with busy := false, done := true, err := true, errcode := errorCode e,
                      fatal := s.status.fatal || e == .invariantViolation } := rfl

/-- Settles O47: an error completion writes the flags of `raiseError_status` and clears the draws; NOINV was 0 before it, by the
invariants of STATUS. -/
theorem errorCompletionWritesStatusOnly : Obligations.ErrorCompletionWritesStatusOnly := by
  refine ⟨fun s ⟨exclusive, _, sentinel, _⟩ => noinv_eq_false_of_busy exclusive sentinel, fun e s _ => ?_⟩
  refine ⟨?_, rfl, rfl, rfl, rfl, rfl, rfl, rfl, rfl, rfl⟩
  rw [raiseError_status]
  cases e <;> rfl

end Sys2Proof.Machine
end

section
/-! PROOFS. What only reset ends (R222): no other event clears FATAL, KEYVALID or the KEY registers, only the completion besides it ends
a command, and a GENKEY that waits for a draw goes on waiting. -/
namespace Sys2Proof.Machine

/-- A command issue writes neither FATAL, KEYVALID nor a KEY register, whatever its outcome (R26, R28). -/
theorem issueCommand_keeps_key (w : Word) (s : State) :
    (issueCommand w s).status.fatal = s.status.fatal ∧ (issueCommand w s).status.keyvalid = s.status.keyvalid ∧
      (issueCommand w s).key = s.key := by
  rcases issueCommand_cases w s with ⟨_, outcome⟩ | ⟨_, _, outcome⟩ | ⟨_, _, _, outcome⟩ | ⟨_, _, _, outcome⟩ <;>
    rw [outcome] <;> exact ⟨rfl, rfl, rfl⟩

/-- A host write to any slot keeps them (R62). -/
theorem hostWrite_keeps_key (i : Slot) (v : Word) (s : State) :
    (hostWrite i v s).status.fatal = s.status.fatal ∧ (hostWrite i v s).status.keyvalid = s.status.keyvalid ∧
      (hostWrite i v s).key = s.key := by
  rcases hostWrite_cases i v s with ⟨_, issue⟩ | ⟨_, arg0⟩ | ⟨_, arg1⟩ | ⟨_, arg2⟩ | ⟨_, _, _, _, unchanged⟩
  · rw [issue]; exact issueCommand_keeps_key v s
  · rw [arg0]; exact ⟨rfl, rfl, rfl⟩
  · rw [arg1]; exact ⟨rfl, rfl, rfl⟩
  · rw [arg2]; exact ⟨rfl, rfl, rfl⟩
  · rw [unchanged]; exact ⟨rfl, rfl, rfl⟩

/-- An offered draw leaves the KEY registers alone, consumed or not (R75). -/
@[simp] theorem offerDraw_key (r : Draw) (s : State) : (offerDraw r s).key = s.key := by
  rcases offerDraw_cases r s with ⟨_, consumed⟩ | ⟨_, ignored⟩
  · rw [consumed, setDraws_key]
  · rw [ignored]

/-- A completion clears neither FATAL nor KEYVALID, and writes the KEY registers only with a KeyPair of the consumed draws (R26, R28). -/
theorem completionOf_keeps_key (i : Instr) (s : State) :
    (s.status.fatal = true → (completionOf i s).status.fatal = true) ∧
      (s.status.keyvalid = true → (completionOf i s).status.keyvalid = true) ∧
      ((completionOf i s).key = s.key ∨
        ∃ k, generateKeyPair s.draws = .made k ∧ (completionOf i s).key = keyRegsOf k) := by
  have raised (e : ErrorKind) : s.status.fatal = true → (raiseError e s).status.fatal = true := by
    intro fatal
    rw [raiseError_status, fatal, Bool.true_or]
  rcases completionOf_cases i s with ⟨_, _, v, result⟩ | ⟨_, inverse⟩ | ⟨_, _, zeroModulus⟩ | ⟨_, _, waits⟩ |
    ⟨_, e, _, failed⟩ | ⟨_, k, made, commits⟩
  · rw [result]; exact ⟨id, id, .inl rfl⟩
  · rw [inverse]; exact ⟨id, id, .inl rfl⟩
  · rw [zeroModulus]; exact ⟨raised _, id, .inl rfl⟩
  · rw [waits]; exact ⟨id, id, .inl rfl⟩
  · rw [failed]; exact ⟨raised e, id, .inl rfl⟩
  · rw [commits]; exact ⟨id, fun _ => rfl, .inr ⟨k, made, rfl⟩⟩

/-- Every event but reset keeps FATAL = 1 and KEYVALID = 1, and only a completion writes the KEY registers (R26, R222). -/
theorem takeEvent_keeps_key {ev : Event} {s t : State} (notReset : ev ≠ .reset) (h : takeEvent ev s = .next t) :
    (s.status.fatal = true → t.status.fatal = true) ∧ (s.status.keyvalid = true → t.status.keyvalid = true) ∧
      (t.key = s.key ∨ ev = .completion ∧ ∃ k, generateKeyPair s.draws = .made k ∧ t.key = keyRegsOf k) := by
  rcases takeEvent_cases h with ⟨i, v, _, rfl⟩ | ⟨i, _, rfl⟩ | ⟨r, _, rfl⟩ | ⟨completion, turn⟩ | ⟨reset, _⟩
  · obtain ⟨fatal, keyvalid, key⟩ := hostWrite_keeps_key i v s
    exact ⟨fatal.trans, keyvalid.trans, .inl key⟩
  · exact ⟨id, id, .inl rfl⟩
  · rw [offerDraw_status, offerDraw_key]
    exact ⟨id, id, .inl rfl⟩
  · rcases coreTurn_cases turn with ⟨_, rfl⟩ | ⟨_, i, _, rfl⟩
    · exact ⟨id, id, .inl rfl⟩
    · obtain ⟨fatal, keyvalid, key⟩ := completionOf_keeps_key i s
      exact ⟨fatal, keyvalid, key.imp_right fun made => ⟨completion, made⟩⟩
  · exact absurd reset notReset

/-- BUSY falls only by the completion or reset (R28). -/
theorem takeEvent_keeps_busy {ev : Event} {s t : State} (busy : s.status.busy = true) (h : takeEvent ev s = .next t)
    (notCompletion : ev ≠ .completion) (notReset : ev ≠ .reset) : t.status.busy = true := by
  rcases takeEvent_status_cases h with kept | ⟨w, _, rfl⟩ | ⟨completion, _⟩ | reset
  · rw [kept, busy]
  · exact (hostWrite_running 0 w s busy).1
  · exact absurd completion notCompletion
  · exact absurd reset notReset

/-- `rnd_req` = 1 exactly while a GENKEY in progress has consumed no deciding draw (R75). -/
theorem rndReq_iff (s : State) :
    rndReq s = true ↔
      s.status.busy = true ∧ s.latch.opc = opcodeOf .genkey ∧ selectPrimes primeTable s.draws = .waiting := by
  simp [rndReq, and_assoc]

/-- While the GENKEY in progress waits for a draw its completion is not enabled, so the CORE's turn does nothing (R115, R166). -/
theorem coreTurn_of_rndReq {s : State} (waiting : rndReq s = true) : coreTurn s = .next s := by
  obtain ⟨busy, genkey, undecided⟩ := (rndReq_iff s).mp waiting
  have selected : instrOfOpcode s.latch.opc = some .genkey := (instrOfOpcode_eq_some_iff _ _).mpr genkey
  have waits : completionOf .genkey s = s := by
    simp only [completionOf, completeGenkey, generateKeyPair, undecided]
  simp only [coreTurn, busy, if_true, selected, exec_eq, whenRunning_busy _ _ busy, waits]

/-- A GENKEY that waits for a draw goes on waiting under every event but a draw or reset (R166, R222). -/
theorem takeEvent_keeps_rndReq {ev : Event} {s t : State} (waiting : rndReq s = true) (h : takeEvent ev s = .next t)
    (notDraw : ∀ r, ev ≠ .draw r) (notReset : ev ≠ .reset) : rndReq t = true := by
  rcases takeEvent_cases h with ⟨i, v, _, rfl⟩ | ⟨i, _, rfl⟩ | ⟨r, draw, _⟩ | ⟨_, turn⟩ | ⟨reset, _⟩
  · obtain ⟨busy, genkey, undecided⟩ := (rndReq_iff s).mp waiting
    obtain ⟨stillBusy, latch, draws⟩ := hostWrite_running i v s busy
    rw [rndReq_iff, latch, draws]
    exact ⟨stillBusy, genkey, undecided⟩
  · exact waiting
  · exact absurd draw (notDraw r)
  · rw [coreTurn_of_rndReq waiting, Host.Outcome.next.injEq] at turn
    exact turn ▸ waiting
  · exact absurd reset notReset

/-- After reset every slot reads 0 (R221): no slot shows the coming events, the one field that reset keeps. -/
theorem allSlotsReadZero_applyReset (s : State) : AllSlotsReadZero (applyReset s) := by
  have atReset : ∀ i, hostRead i State.reset = 0 := by decide
  exact atReset

/-- Settles O50: reset answers the reset state whatever was in progress, and the other events keep what they must, each by its own
lemma. -/
theorem resetAbandonsEverything : Obligations.ResetAbandonsEverything := by
  refine ⟨fun s => ⟨applyReset s, rfl, allSlotsReadZero_applyReset s, rfl, rfl, rfl, rfl, rfl⟩, fun ev s t notReset h => ?_⟩
  obtain ⟨fatal, keyvalid, key⟩ := takeEvent_keeps_key notReset h
  refine ⟨fatal, keyvalid, key, fun busy falls => ?_, fun waiting notDraw => ?_⟩
  · by_contra notCompletion
    have keeps := takeEvent_keeps_busy busy h notCompletion notReset
    simp [falls] at keeps
  · have stillWaits := takeEvent_keeps_rndReq waiting h notDraw notReset
    exact ⟨((rndReq_iff t).mp stillWaits).1, stillWaits⟩

end Sys2Proof.Machine
end

section
/-! PROOFS. The commands on the operands zero that reset leaves (R224). -/
namespace Sys2Proof.Machine

/-- The reset state after the acceptance of the command `i`, which latches the operands zero. -/
def issuedAtReset (i : Instr) : State := acceptCommand (encode i) State.reset

/-- Issued in the reset state, a command is accepted, and its run is its completion (R113, R115). -/
theorem exec_issuedAtReset (i : Instr) :
    exec i (hostWrite 0 (encode i) State.reset) = .next (completionOf i (issuedAtReset i)) := by
  have decodes : decode (encode i) = .ok i := (decode_eq_ok_iff_eq_encode _ _).mpr rfl
  have accepted : hostWrite 0 (encode i) State.reset = issuedAtReset i := issueCommand_accepted rfl rfl decodes
  rw [accepted, exec_eq, whenRunning_busy _ _ rfl]

/-- A power command on the operands zero has a zero modulus: it writes no RESULT and reports DivideByZero (R152). -/
theorem exec_power_at_reset {i : Instr} (power : i = .modpow ∨ i = .encrypt ∨ i = .decrypt) :
    ∃ t, exec i (hostWrite 0 (encode i) State.reset) = .next t ∧ t.result = 0 ∧ t.status.word = 0x00000206 := by
  have word : (raiseError .divideByZero (issuedAtReset i)).status.word.toNat = 0x206 :=
    toNat_statusWord_failed (by decide) rfl rfl
  refine ⟨raiseError .divideByZero (issuedAtReset i), ?_, rfl, BitVec.eq_of_toNat_eq word⟩
  rw [exec_issuedAtReset, completionOf_zeroModulus power rfl]

/-- Settles O51: `IsPrime(0)` is false, `Gcd(0, 0)` is 0, so `ModInverse(0, 0)` is the sentinel, and `FindValidE(0)` is the fallback; the
three power commands end in DivideByZero. -/
theorem commandsOnResetOperands : Obligations.CommandsOnResetOperands := by
  have gcd : euclidGcd 0 0 = 0 := euclidGcd_eq_gcd 0 0
  have inverse : modInverse 0 0 = -1 := modInverse_of_not_coprime (by decide)
  refine ⟨⟨_, exec_issuedAtReset .isprime, rfl, rfl⟩, ⟨_, exec_issuedAtReset .gcd, congrArg trunc32 gcd, rfl⟩,
    ⟨completeInverse (-1) (issuedAtReset .modinv), ?_, rfl, rfl⟩, exec_power_at_reset (.inl rfl),
    exec_power_at_reset (.inr (.inl rfl)), exec_power_at_reset (.inr (.inr rfl)),
    ⟨_, exec_issuedAtReset .finde, rfl, rfl⟩⟩
  calc exec .modinv (hostWrite 0 (encode .modinv) State.reset)
      = .next (completeInverse (modInverse 0 0) (issuedAtReset .modinv)) := exec_issuedAtReset .modinv
    _ = .next (completeInverse (-1) (issuedAtReset .modinv)) := by rw [inverse]

end Sys2Proof.Machine
end

section
/-! PROOFS. What an event can do to the registers, said once: an access that leaves them all, a command issue, the completion of the
command in progress, or reset (20_memory.md R70, 40_command_lifecycle.md R120); and which operation writes which register. -/
namespace Sys2Proof.Machine

/-- `t` has the registers of `s` that no host write sets directly: CMD, STATUS, RESULT, the KEY registers and the latches. -/
def SameRegisters (s t : State) : Prop :=
  t.cmd = s.cmd ∧ t.status = s.status ∧ t.result = s.result ∧ t.key = s.key ∧ t.latch = s.latch

/-- Every state has its own registers. -/
theorem SameRegisters.refl (s : State) : SameRegisters s s := ⟨rfl, rfl, rfl, rfl, rfl⟩

/-- A host write is a command issue or leaves these registers alone (R62). -/
theorem hostWrite_issues_or_keeps (i : Slot) (v : Word) (s : State) :
    (i = 0 ∧ hostWrite i v s = issueCommand v s) ∨ SameRegisters s (hostWrite i v s) := by
  rcases hostWrite_cases i v s with issue | ⟨_, arg0⟩ | ⟨_, arg1⟩ | ⟨_, arg2⟩ | ⟨_, _, _, _, unchanged⟩
  · exact .inl issue
  · exact .inr (arg0 ▸ .refl s)
  · exact .inr (arg1 ▸ .refl s)
  · exact .inr (arg2 ▸ .refl s)
  · exact .inr (unchanged.symm ▸ .refl s)

/-- An offered draw leaves the registers alone, consumed or not (R75). -/
theorem offerDraw_sameRegisters (r : Draw) (s : State) : SameRegisters s (offerDraw r s) := by
  rcases offerDraw_cases r s with ⟨_, consumed⟩ | ⟨_, ignored⟩
  · exact consumed ▸ .refl s
  · exact ignored.symm ▸ .refl s

/-- The events by what they do to the registers. -/
theorem takeEvent_register_cases {ev : Event} {s t : State} (h : takeEvent ev s = .next t) :
    SameRegisters s t ∨ (∃ w, ev = .hostWrite 0 w ∧ t = issueCommand w s) ∨
      (ev = .completion ∧ s.status.busy = true ∧ ∃ i, s.latch.opc = opcodeOf i ∧ t = completionOf i s) ∨
      (ev = .reset ∧ t = applyReset s) := by
  rcases takeEvent_cases h with ⟨i, v, rfl, rfl⟩ | ⟨i, _, rfl⟩ | ⟨r, _, rfl⟩ | ⟨completion, turn⟩ | reset
  · rcases hostWrite_issues_or_keeps i v s with ⟨rfl, issue⟩ | keeps
    · exact .inr (.inl ⟨v, rfl, issue⟩)
    · exact .inl keeps
  · exact .inl (.refl s)
  · exact .inl (offerDraw_sameRegisters r s)
  · rcases coreTurn_cases turn with ⟨_, rfl⟩ | ⟨busy, i, selected, rfl⟩
    · exact .inl (.refl t)
    · exact .inr (.inr (.inl ⟨completion, busy, i, (instrOfOpcode_eq_some_iff _ i).mp selected, rfl⟩))
  · exact .inr (.inr (.inr reset))

/-- A property that does not look at the coming events, and that every event keeps, is kept by every step. -/
theorem step_keeps {P : State → Prop} (blind : ∀ s es, P s → P (s.setInputs es))
    (keeps : ∀ ev s t, P s → takeEvent ev s = .next t → P t) {s t : State} (holds : P s) (h : step s = .next t) : P t := by
  rcases step_cases h with ⟨_, turn⟩ | ⟨ev, rest, _, event⟩
  · exact keeps .completion s t holds turn
  · exact keeps ev _ t (blind s rest holds) event

/-- A command issue writes neither RESULT nor an operand register (R112, R113, R117, R118). -/
theorem issueCommand_keeps_operands (w : Word) (s : State) :
    (issueCommand w s).result = s.result ∧ (issueCommand w s).arg0 = s.arg0 ∧ (issueCommand w s).arg1 = s.arg1 ∧
      (issueCommand w s).arg2 = s.arg2 := by
  rcases issueCommand_cases w s with ⟨_, outcome⟩ | ⟨_, _, outcome⟩ | ⟨_, _, _, outcome⟩ | ⟨_, _, _, outcome⟩ <;>
    rw [outcome] <;> exact ⟨rfl, rfl, rfl, rfl⟩

/-- A completion leaves alone what R115 and R120 say, and in this model the latches too (notes/assumptions/4.md). -/
theorem completionOf_frame (i : Instr) (s : State) :
    CompletionFrame s (completionOf i s) ∧ (completionOf i s).latch = s.latch := by
  rcases completionOf_cases i s with ⟨_, _, v, outcome⟩ | ⟨_, outcome⟩ | ⟨_, _, outcome⟩ | ⟨_, _, outcome⟩ |
    ⟨_, e, _, outcome⟩ | ⟨_, k, _, outcome⟩ <;>
    rw [outcome] <;> exact ⟨⟨rfl, rfl, rfl, rfl, rfl, rfl⟩, rfl⟩

/-- A completion ends its command, with BUSY = 0, DONE = 1 and no draw left, or it is a GENKEY that waits (R116, R166). -/
theorem completionOf_ends_or_waits (i : Instr) (s : State) :
    ((completionOf i s).status.busy = false ∧ (completionOf i s).status.done = true ∧ (completionOf i s).draws = []) ∨
      (i = .genkey ∧ generateKeyPair s.draws = .waiting ∧ completionOf i s = s) := by
  rcases completionOf_cases i s with ⟨_, _, v, result⟩ | ⟨_, inverse⟩ | ⟨_, _, zeroModulus⟩ | waits | ⟨_, e, _, failed⟩ |
    ⟨_, k, _, made⟩
  · exact .inl (result ▸ ⟨rfl, rfl, rfl⟩)
  · exact .inl (inverse ▸ ⟨rfl, rfl, rfl⟩)
  · exact .inl (zeroModulus ▸ ⟨rfl, rfl, rfl⟩)
  · exact .inr waits
  · exact .inl (failed ▸ ⟨rfl, rfl, rfl⟩)
  · exact .inl (made ▸ ⟨rfl, rfl, rfl⟩)

/-- While BUSY = 1 `exec` answers the completion of its command (R115). -/
theorem exec_of_busy (i : Instr) {s : State} (busy : s.status.busy = true) : exec i s = .next (completionOf i s) := by
  rw [exec_eq, whenRunning_busy _ _ busy]

/-- The CORE's turn while BUSY = 1 is `exec` of the command OPC names (R115). -/
theorem coreTurn_of_busy {i : Instr} {s : State} (busy : s.status.busy = true) (selects : s.latch.opc = opcodeOf i) :
    coreTurn s = exec i s := by
  simp only [coreTurn, busy, if_true, (instrOfOpcode_eq_some_iff _ i).mpr selects]

/-- The CORE's turn while BUSY = 0 changes nothing (notes/assumptions/5.md). -/
theorem coreTurn_of_notBusy {s : State} (idle : s.status.busy = false) : coreTurn s = .next s := by
  simp [coreTurn, idle]

end Sys2Proof.Machine
end

section
/-! PROOFS. Which event writes which register (10_state.md section 1): the operand registers, RESULT, the KEY registers, CMD. -/
namespace Sys2Proof.Machine

/-- What the operand register of slot `slot` holds after `ev`, where `old` is its value before (R23). -/
def operandAfter (slot : Slot) (old : Word) : Event → Word
  | .hostWrite i v => if i = slot then v else old
  | _ => old

/-- The two readings of R23: only the slot's own write changes the register, and that write sets it. -/
theorem operandAfter_spec (slot : Slot) (old : Word) (ev : Event) :
    ((∀ v, ev ≠ .hostWrite slot v) → operandAfter slot old ev = old) ∧
      ∀ v, ev = .hostWrite slot v → operandAfter slot old ev = v := by
  refine ⟨fun notWritten => ?_, ?_⟩
  · cases ev with
    | hostWrite i v => exact if_neg fun slotWritten => notWritten v (by rw [slotWritten])
    | _ => rfl
  · rintro v rfl
    exact if_pos rfl

/-- Every event but reset leaves in the operand registers what R23 says. -/
theorem takeEvent_operands {ev : Event} {s t : State} (h : takeEvent ev s = .next t) (notReset : ev ≠ .reset) :
    t.arg0 = operandAfter 2 s.arg0 ev ∧ t.arg1 = operandAfter 3 s.arg1 ev ∧ t.arg2 = operandAfter 4 s.arg2 ev := by
  rcases takeEvent_cases h with ⟨i, v, rfl, rfl⟩ | ⟨i, rfl, rfl⟩ | ⟨r, rfl, rfl⟩ | ⟨rfl, turn⟩ | ⟨reset, _⟩
  · rcases hostWrite_cases i v s with ⟨rfl, issue⟩ | ⟨rfl, arg0⟩ | ⟨rfl, arg1⟩ | ⟨rfl, arg2⟩ |
      ⟨_, h2, h3, h4, unchanged⟩
    · rw [issue]
      exact (issueCommand_keeps_operands v s).2
    · rw [arg0]; exact ⟨rfl, rfl, rfl⟩
    · rw [arg1]; exact ⟨rfl, rfl, rfl⟩
    · rw [arg2]; exact ⟨rfl, rfl, rfl⟩
    · rw [unchanged]
      exact ⟨(if_neg h2).symm, (if_neg h3).symm, (if_neg h4).symm⟩
  · exact ⟨rfl, rfl, rfl⟩
  · rcases offerDraw_cases r s with ⟨_, consumed⟩ | ⟨_, ignored⟩
    · rw [consumed]; exact ⟨rfl, rfl, rfl⟩
    · rw [ignored]; exact ⟨rfl, rfl, rfl⟩
  · rcases coreTurn_cases turn with ⟨_, rfl⟩ | ⟨_, i, _, rfl⟩
    · exact ⟨rfl, rfl, rfl⟩
    · obtain ⟨⟨_, arg0, arg1, arg2, _⟩, _⟩ := completionOf_frame i s
      exact ⟨arg0, arg1, arg2⟩
  · exact absurd reset notReset

/-- Settles O9: each register holds what `operandAfter` of its slot says. -/
theorem operandRegistersAreWrittenByTheHostOnly : Obligations.OperandRegistersAreWrittenByTheHostOnly := by
  intro ev s t h notReset
  obtain ⟨arg0, arg1, arg2⟩ := takeEvent_operands h notReset
  obtain ⟨kept0, written0⟩ := operandAfter_spec 2 s.arg0 ev
  obtain ⟨kept1, written1⟩ := operandAfter_spec 3 s.arg1 ev
  obtain ⟨kept2, written2⟩ := operandAfter_spec 4 s.arg2 ev
  rw [arg0, arg1, arg2]
  exact ⟨kept0, written0, kept1, written1, kept2, written2⟩

/-- A completion that changes RESULT is a success of a command other than GENKEY, with ERR as it was (R25, R116). -/
theorem completionOf_changes_result {i : Instr} {s : State} (changed : (completionOf i s).result ≠ s.result) :
    i ≠ .genkey ∧ (completionOf i s).status.busy = false ∧ (completionOf i s).status.done = true ∧
      (completionOf i s).status.err = s.status.err := by
  rcases completionOf_cases i s with ⟨_, notGenkey, v, result⟩ | ⟨rfl, inverse⟩ | ⟨_, _, zeroModulus⟩ | ⟨_, _, waits⟩ |
    ⟨_, e, _, failed⟩ | ⟨_, k, _, made⟩
  · rw [result]; exact ⟨notGenkey, rfl, rfl, rfl⟩
  · rw [inverse]; exact ⟨by decide, rfl, rfl, rfl⟩
  · exact absurd (congrArg State.result zeroModulus) changed
  · exact absurd (congrArg State.result waits) changed
  · exact absurd (congrArg State.result failed) changed
  · exact absurd (congrArg State.result made) changed

/-- The opcodes of distinct commands are distinct (R93). -/
theorem opcodeOf_injective {i j : Instr} (same : opcodeOf i = opcodeOf j) : i = j :=
  Option.some.inj <| ((instrOfOpcode_eq_some_iff _ i).mpr rfl).symm.trans ((instrOfOpcode_eq_some_iff _ j).mpr same)

/-- Settles O10: no access and no issue writes RESULT, and of the completions only a success other than GENKEY's does. -/
theorem resultIsWrittenByCompletionsOnly : Obligations.ResultIsWrittenByCompletionsOnly := by
  intro ev s t h changed
  rcases takeEvent_register_cases h with ⟨_, _, result, _⟩ | ⟨w, _, rfl⟩ | ⟨completion, busy, i, selects, rfl⟩ | ⟨reset, _⟩
  · exact absurd result changed
  · exact absurd (issueCommand_keeps_operands w s).1 changed
  · obtain ⟨notGenkey, ended, done, err⟩ := completionOf_changes_result changed
    exact .inr ⟨completion, busy, fun genkey => notGenkey (opcodeOf_injective (selects.symm.trans genkey)), ended, done, err⟩
  · exact .inl reset

/-- A completion that changes a KEY register or KEYVALID is GENKEY's commit (R26, R169). -/
theorem completionOf_changes_key {i : Instr} {s : State}
    (changed : (completionOf i s).key ≠ s.key ∨ (completionOf i s).status.keyvalid ≠ s.status.keyvalid) :
    i = .genkey ∧ ∃ k, generateKeyPair s.draws = .made k ∧ completionOf i s = completeKey (keyRegsOf k) s := by
  have unchanged {u : State} (outcome : completionOf i s = u) (key : u.key = s.key)
      (keyvalid : u.status.keyvalid = s.status.keyvalid) : False := by
    simp [outcome, key, keyvalid] at changed
  rcases completionOf_cases i s with ⟨_, _, v, result⟩ | ⟨_, inverse⟩ | ⟨_, _, zeroModulus⟩ | ⟨_, _, waits⟩ |
    ⟨_, e, _, failed⟩ | commits
  · exact (unchanged result rfl rfl).elim
  · exact (unchanged inverse rfl rfl).elim
  · exact (unchanged zeroModulus rfl rfl).elim
  · exact (unchanged waits rfl rfl).elim
  · exact (unchanged failed rfl rfl).elim
  · exact commits

/-- Settles O11: no access and no issue writes them, and of the completions only GENKEY's commit does. -/
theorem keyRegistersAreWrittenByGenkeyOnly : Obligations.KeyRegistersAreWrittenByGenkeyOnly := by
  intro ev s t h changed
  rcases takeEvent_register_cases h with ⟨_, status, _, key, _⟩ | ⟨w, _, rfl⟩ | ⟨completion, busy, i, selects, rfl⟩ |
    ⟨reset, _⟩
  · exact absurd changed (by simp [key, status])
  · obtain ⟨_, keyvalid, key⟩ := issueCommand_keeps_key w s
    exact absurd changed (by simp [key, keyvalid])
  · obtain ⟨rfl, k, made, commits⟩ := completionOf_changes_key changed
    rw [commits]
    exact .inr ⟨completion, busy, selects, rfl, rfl, k, made, rfl⟩
  · exact .inl reset

/-- Settles O12: of the outcomes of an issue only the acceptance writes CMD, with the accepted word; no completion does. -/
theorem cmdChangesAtAcceptanceOnly : Obligations.CmdChangesAtAcceptanceOnly := by
  intro ev s t h changed
  rcases takeEvent_register_cases h with ⟨cmd, _⟩ | ⟨w, issue, rfl⟩ | ⟨_, _, i, _, rfl⟩ | ⟨reset, _⟩
  · exact absurd cmd changed
  · rcases issueCommand_cases w s with ⟨_, ignored⟩ | ⟨_, _, dropped⟩ | ⟨_, _, _, rejected⟩ |
      ⟨fatal, busy, decodes, accepted⟩
    · exact absurd (congrArg State.cmd ignored) changed
    · exact absurd (congrArg State.cmd dropped) changed
    · exact absurd (congrArg State.cmd rejected) changed
    · rw [accepted]
      exact .inr ⟨issue, busy, fatal, rfl, decodes⟩
  · exact absurd (completionOf_frame i s).1.1 changed
  · exact .inl reset

/-- Settles O22: an issue in that condition is dropped, and the other events but these two leave the registers alone. -/
theorem registersKeepWhileRunning : Obligations.RegistersKeepWhileRunning := by
  intro ev s t busy fatal h notCompletion notReset
  rcases takeEvent_register_cases h with ⟨cmd, status, result, key, latch⟩ | ⟨w, _, rfl⟩ | ⟨completion, _⟩ | ⟨reset, _⟩
  · exact ⟨cmd, result, key, latch, by rw [status]⟩
  · rw [issueCommand_running busy fatal]
    exact ⟨rfl, rfl, rfl, rfl, rfl⟩
  · exact absurd completion notCompletion
  · exact absurd reset notReset

end Sys2Proof.Machine
end

section
/-! PROOFS. The invariants of STATUS and of the latches (10_state.md R29, 30_encoding.md R99): one lemma per operation that writes STATUS,
and the flags they fix while a command is in progress. -/
namespace Sys2Proof.Machine

section
variable {s : State}

/-- An access that leaves the registers alone keeps the invariants. -/
theorem SameRegisters.statusInv {t : State} (same : SameRegisters s t) (inv : StatusInv s) : StatusInv t := by
  obtain ⟨cmd, status, result, key, latch⟩ := same
  simpa only [StatusInv, BusyDoneExclusive, ErrorReported, SentinelReported, FatalReported, NoKeyReadsZero, LatchedLegal, cmd,
    status, result, key, latch] using inv

/-- R29 while a command is in progress: DONE = 0, so no error, no sentinel and no fatal error is reported. -/
theorem flags_of_busy (inv : StatusInv s) (busy : s.status.busy = true) :
    s.status.done = false ∧ s.status.err = false ∧ s.status.errcode = 0 ∧ s.status.noinv = false ∧ s.status.fatal = false := by
  obtain ⟨exclusive, ⟨errDone, noErrCode⟩, sentinel, fatal, _⟩ := inv
  have done : s.status.done = false := Bool.eq_false_iff.mpr fun done => exclusive ⟨busy, done⟩
  have err : s.status.err = false := Bool.eq_false_iff.mpr fun err => by
    obtain ⟨reported, _⟩ := errDone err
    simp [done] at reported
  have notFatal : s.status.fatal = false := Bool.eq_false_iff.mpr fun dead => by
    obtain ⟨notBusy, _⟩ := fatal dead
    simp [busy] at notBusy
  exact ⟨done, err, noErrCode err, noinv_eq_false_of_busy exclusive sentinel busy, notFatal⟩

/-- A dropped issue writes CMDDROP alone, which no invariant speaks of (R117). -/
theorem dropCommand_statusInv (inv : StatusInv s) : StatusInv (dropCommand s) := inv

/-- A rejection in IDLE reports IllegalCommand and clears NOINV (R112). -/
theorem rejectCommand_statusInv (inv : StatusInv s) (busy : s.status.busy = false) (fatal : s.status.fatal = false) :
    StatusInv (rejectCommand s) := by
  obtain ⟨_, _, _, _, noKey, _⟩ := inv
  refine ⟨?_, ?_, ?_, ?_, noKey, ?_⟩ <;> simp [ErrorReported, rejectCommand, busy, fatal]

/-- An acceptance clears the reports and latches the opcode of its legal word (R113). -/
theorem acceptCommand_statusInv {w : Word} (inv : StatusInv s) (fatal : s.status.fatal = false) (legal : legalWord w = true) :
    StatusInv (acceptCommand w s) := by
  obtain ⟨_, _, _, _, noKey, _⟩ := inv
  refine ⟨?_, ?_, ?_, ?_, noKey, fun _ => ⟨legal, rfl⟩⟩ <;> simp [ErrorReported, acceptCommand, fatal]

/-- A command issue keeps the invariants, whatever the word. -/
theorem issueCommand_statusInv (w : Word) (inv : StatusInv s) : StatusInv (issueCommand w s) := by
  rcases issueCommand_cases w s with ⟨_, ignored⟩ | ⟨_, _, dropped⟩ | ⟨fatal, busy, _, rejected⟩ |
    ⟨fatal, _, decodes, accepted⟩
  · exact ignored.symm ▸ inv
  · exact dropped ▸ dropCommand_statusInv inv
  · exact rejected ▸ rejectCommand_statusInv inv busy fatal
  · exact accepted ▸ acceptCommand_statusInv inv fatal ((exists_decode_iff_legalWord w).mp decodes)

/-- The codes of R190 are 1 to 4. -/
theorem errorCode_bounds (e : ErrorKind) : 1 ≤ (errorCode e).toNat ∧ (errorCode e).toNat ≤ 4 := by
  cases e <;> decide

section
variable (inv : StatusInv s) (busy : s.status.busy = true)
include inv busy

/-- A success that writes RESULT reports nothing but DONE (R116). -/
theorem completeResult_statusInv (v : Nat) : StatusInv (completeResult v s) := by
  obtain ⟨_, err, errcode, noinv, fatal⟩ := flags_of_busy inv busy
  obtain ⟨_, _, _, _, noKey, _⟩ := inv
  refine ⟨?_, ?_, ?_, ?_, noKey, ?_⟩ <;> simp [ErrorReported, completeResult, err, errcode, noinv, fatal]

/-- MODINV's success reports the sentinel exactly with its pattern in RESULT; CMD still holds MODINV's word (R29 (c), R135). -/
theorem completeInverse_statusInv (v : Int) (modinv : s.latch.opc = opcodeOf .modinv) : StatusInv (completeInverse v s) := by
  obtain ⟨_, err, errcode, _, fatal⟩ := flags_of_busy inv busy
  obtain ⟨_, _, _, _, noKey, latched⟩ := inv
  have opcode : opcodeField s.cmd = 3 := (latched busy).2.symm.trans modinv
  refine ⟨?_, ?_, fun sentinel => ⟨rfl, err, ?_, opcode⟩, ?_, noKey, ?_⟩
  case refine_3 =>
    obtain rfl : v = -1 := of_decide_eq_true sentinel
    rfl
  all_goals simp [ErrorReported, completeInverse, err, errcode, fatal]

/-- GENKEY's success sets KEYVALID with the KEY registers (R116). -/
theorem completeKey_statusInv (k : KeyRegs) : StatusInv (completeKey k s) := by
  obtain ⟨_, err, errcode, noinv, fatal⟩ := flags_of_busy inv busy
  refine ⟨?_, ?_, ?_, ?_, ?_, ?_⟩ <;> simp [ErrorReported, completeKey, err, errcode, noinv, fatal]

/-- An error completion reports its code, and FATAL with code 4 alone (R190, R195). -/
theorem raiseError_statusInv (e : ErrorKind) : StatusInv (raiseError e s) := by
  obtain ⟨_, _, _, noinv, fatal⟩ := flags_of_busy inv busy
  obtain ⟨_, _, _, _, noKey, _⟩ := inv
  refine ⟨?_, ⟨fun _ => ⟨rfl, errorCode_bounds e⟩, ?_⟩, ?_, fun dead => ⟨rfl, rfl, rfl, ?_⟩, noKey, ?_⟩
  case refine_4 =>
    obtain rfl : e = .invariantViolation := by simpa [raiseError, fatal] using dead
    rfl
  all_goals simp [raiseError, noinv]

/-- The completion of the latched command keeps the invariants. -/
theorem completionOf_statusInv {i : Instr} (selects : s.latch.opc = opcodeOf i) : StatusInv (completionOf i s) := by
  rcases completionOf_cases i s with ⟨_, _, v, result⟩ | ⟨rfl, inverse⟩ | ⟨_, _, zeroModulus⟩ | ⟨_, _, waits⟩ |
    ⟨_, e, _, failed⟩ | ⟨_, k, _, made⟩
  · exact result ▸ completeResult_statusInv inv busy v
  · exact inverse ▸ completeInverse_statusInv inv busy _ selects
  · exact zeroModulus ▸ raiseError_statusInv inv busy _
  · exact waits.symm ▸ inv
  · exact failed ▸ raiseError_statusInv inv busy e
  · exact made ▸ completeKey_statusInv inv busy _

end

end

/-- The reset state reports nothing (R221). -/
theorem statusInv_reset : StatusInv State.reset := by decide

/-- Every event keeps the invariants of STATUS. -/
theorem takeEvent_statusInv {ev : Event} {s t : State} (inv : StatusInv s) (h : takeEvent ev s = .next t) : StatusInv t := by
  rcases takeEvent_register_cases h with same | ⟨w, _, rfl⟩ | ⟨_, busy, i, selects, rfl⟩ | ⟨_, rfl⟩
  · exact same.statusInv inv
  · exact issueCommand_statusInv w inv
  · exact completionOf_statusInv inv busy selects
  · exact statusInv_reset

/-- Settles O54: the invariants do not look at the coming events, and every event keeps them. -/
theorem stepKeepsTheStatusInvariants : Obligations.StepKeepsTheStatusInvariants :=
  fun _ _ => step_keeps (fun _ _ inv => inv) fun _ _ _ => takeEvent_statusInv

/-- Settles O55: in the reset state no flag is set, so nothing is reported and no KeyPair claimed. -/
theorem resetMeetsTheInvariants : Obligations.ResetMeetsTheInvariants :=
  ⟨statusInv_reset, fun keyvalid => absurd keyvalid (by decide), rfl⟩

/-- An event but reset that starts with exactly one of BUSY and DONE set ends with exactly one of them set (R29 (a)). -/
theorem takeEvent_keeps_oneOfBusyAndDone {ev : Event} {s t : State} (apart : s.status.busy ≠ s.status.done)
    (notReset : ev ≠ .reset) (h : takeEvent ev s = .next t) : t.status.busy ≠ t.status.done := by
  rcases takeEvent_register_cases h with ⟨_, status, _⟩ | ⟨w, _, rfl⟩ | ⟨_, _, i, _, rfl⟩ | ⟨reset, _⟩
  · rw [status]; exact apart
  · rcases issueCommand_cases w s with ⟨_, ignored⟩ | ⟨_, _, dropped⟩ | ⟨_, busy, _, rejected⟩ | ⟨_, _, _, accepted⟩
    · rw [ignored]; exact apart
    · rw [dropped]; exact apart
    · simp [rejected, rejectCommand, busy]
    · simp [accepted, acceptCommand]
  · rcases completionOf_ends_or_waits i s with ⟨busy, done, _⟩ | ⟨_, _, waits⟩
    · rw [busy, done]; decide
    · rw [waits]; exact apart
  · exact absurd reset notReset

/-- Settles O58: in IDLE an issue is rejected, which sets DONE, or accepted, which sets BUSY and clears DONE. -/
theorem exactlyOneOfBusyAndDone : Obligations.ExactlyOneOfBusyAndDone := by
  refine ⟨fun s w busy fatal => ?_, fun _ _ _ => takeEvent_keeps_oneOfBusyAndDone⟩
  change (issueCommand w s).status.busy ≠ (issueCommand w s).status.done
  cases decoded : decode w with
  | error r => simp [issueCommand_rejected busy fatal decoded, rejectCommand, busy]
  | ok i => simp [issueCommand_accepted busy fatal decoded, acceptCommand]

/-- Settles O59: R29 (d) and (c) fix every flag but KEYVALID and CMDDROP; an issue is ignored and no completion is enabled. -/
theorem fatalStatusIsFixed : Obligations.FatalStatusIsFixed := by
  intro s ⟨_, _, sentinel, fatalReported, _⟩ fatal
  obtain ⟨busy, done, err, errcode⟩ := fatalReported fatal
  have noinv : s.status.noinv = false := Bool.eq_false_iff.mpr fun noinv => by
    obtain ⟨_, noErr, _⟩ := sentinel noinv
    simp [err] at noErr
  refine ⟨?_, fun ev t h notReset => ?_⟩
  · rw [toNat_statusWord, busy, done, err, errcode, noinv, fatal]
    cases s.status.keyvalid <;> cases s.status.cmddrop <;> rfl
  · rcases takeEvent_register_cases h with ⟨_, status, _⟩ | ⟨w, _, rfl⟩ | ⟨_, running, _⟩ | ⟨reset, _⟩
    · exact status
    · rw [issueCommand_dead fatal]
    · simp [busy] at running
    · exact absurd reset notReset

end Sys2Proof.Machine
end

section
/-! PROOFS. Steps and the CORE's turn (20_memory.md R70, 40_command_lifecycle.md R115, R121). -/
namespace Sys2Proof.Machine

/-- With an event pending the step is that event. -/
theorem step_of_pending {s : State} {ev : Event} {rest : List Event} (pending : s.inputs = ev :: rest) :
    step s = takeEvent ev (s.setInputs rest) := by
  simp only [step, advance, pending]

/-- With no event pending the step is the CORE's turn (notes/assumptions/2.md). -/
theorem step_of_noInput {s : State} (noInput : s.inputs = []) : step s = coreTurn s := by
  simp only [step, advance, noInput]

/-- Settles O13: the two rows of `advance`. -/
theorem stepTakesTheNextEvent : Obligations.StepTakesTheNextEvent :=
  fun _ => ⟨fun _ _ => step_of_pending, step_of_noInput⟩

/-- Settles O14: the CORE's turn, on an empty list and at a pending completion, while BUSY = 1 and while BUSY = 0. -/
theorem stepRunsTheLatchedCommand : Obligations.StepRunsTheLatchedCommand := by
  intro s i
  refine ⟨fun busy selects noInput => ?_, fun rest busy selects pending => ?_, fun idle noInput => ?_, fun rest idle pending => ?_⟩
  · exact (step_of_noInput noInput).trans (coreTurn_of_busy busy selects)
  · exact (step_of_pending pending).trans (coreTurn_of_busy (s := s.setInputs rest) busy selects)
  · exact (step_of_noInput noInput).trans (coreTurn_of_notBusy idle)
  · exact (step_of_pending pending).trans (coreTurn_of_notBusy (s := s.setInputs rest) idle)

/-- The opcode field of a word that decodes is the opcode of its command (R93). -/
theorem opcodeField_of_decode {w : Word} {i : Instr} (decodes : decode w = .ok i) : opcodeField w = opcodeOf i :=
  (instrOfOpcode_eq_some_iff _ i).mp ((decode_eq_ok_iff w i).mp decodes).2

/-- Settles O15: the first step accepts the word, which latches its opcode; the second is the CORE's turn. -/
theorem issuedWordIsDecodedThenRun : Obligations.IssuedWordIsDecodedThenRun := by
  intro s w i rest busy fatal pending decodes
  have runs : step (acceptCommand w (s.setInputs (.completion :: rest))) = exec i ((acceptCommand w s).setInputs rest) :=
    calc step (acceptCommand w (s.setInputs (.completion :: rest)))
        = takeEvent .completion ((acceptCommand w s).setInputs rest) := step_of_pending rfl
      _ = exec i ((acceptCommand w s).setInputs rest) := coreTurn_of_busy rfl (opcodeField_of_decode decodes)
  refine ⟨acceptCommand w (s.setInputs (.completion :: rest)), ?_, rfl, rfl, runs⟩
  rw [step_of_pending pending, takeEvent_hostWrite_zero,
    issueCommand_accepted (s := s.setInputs (.completion :: rest)) busy fatal decodes]

/-- Settles O24: a completion ends its command unless it is a GENKEY that waits. -/
theorem sevenCommandsCompleteAtTheCoreTurn : Obligations.SevenCommandsCompleteAtTheCoreTurn := by
  intro s i notGenkey busy selects
  have answers : takeEvent .completion s = .next (completionOf i s) :=
    (coreTurn_of_busy busy selects).trans (exec_of_busy i busy)
  rcases completionOf_ends_or_waits i s with ⟨ended, done, _⟩ | ⟨genkey, _⟩
  · exact ⟨_, answers, ended, done⟩
  · exact absurd genkey notGenkey

/-- Settles O25: with BUSY = 0 the state stays, and no completion writes a latch. -/
theorem completionKeepsTheLatches : Obligations.CompletionKeepsTheLatches := by
  intro i s t answers
  rw [exec_eq, whenRunning_eq, Host.Outcome.next.injEq] at answers
  subst answers
  split
  · exact (completionOf_frame i s).2
  · rfl

/-- While BUSY = 1 implies a latched legal opcode, the CORE's turn meets no fault (notes/assumptions/12.md). -/
theorem coreTurn_answers {s : State} (latched : LatchedLegal s) : ∃ t, coreTurn s = .next t := by
  cases busy : s.status.busy with
  | false => exact ⟨s, coreTurn_of_notBusy busy⟩
  | true =>
    obtain ⟨legal, opcode⟩ := latched busy
    obtain ⟨i, decodes⟩ := (exists_decode_iff_legalWord s.cmd).mpr legal
    exact ⟨_, (coreTurn_of_busy busy (opcode.trans (opcodeField_of_decode decodes))).trans (exec_of_busy i busy)⟩

/-- Settles O60: only the CORE's turn can stop, and it does not while the latch is legal. -/
theorem stepNeverStops : Obligations.StepNeverStops := by
  intro s latched
  cases pending : s.inputs with
  | nil =>
    rw [step_of_noInput pending]
    exact coreTurn_answers latched
  | cons ev rest =>
    rw [step_of_pending pending]
    cases ev with
    | completion => exact coreTurn_answers (s := s.setInputs rest) latched
    | hostWrite | hostRead | draw | reset => exact ⟨_, rfl⟩

/-- While the CORE requests no draw, an offered one changes nothing (notes/assumptions/6.md). -/
theorem offerDraw_ignored {s : State} (noRequest : rndReq s = false) (r : Draw) : offerDraw r s = s := by
  rw [offerDraw, noRequest, if_neg Bool.false_ne_true]

/-- While the CORE requests a draw, an offered one is consumed (R75). -/
theorem offerDraw_consumed {s : State} (request : rndReq s = true) (r : Draw) :
    offerDraw r s = s.setDraws (s.draws ++ [r]) := by
  rw [offerDraw, if_pos request]

/-- An accepted GENKEY has consumed no draw, so it requests one (R165). -/
theorem rndReq_acceptCommand {w : Word} (genkey : opcodeField w = opcodeOf .genkey) (s : State) :
    rndReq (acceptCommand w s) = true :=
  (rndReq_iff _).mpr ⟨rfl, genkey, rfl⟩

/-- Settles O43: `rndReq` is the condition of `offerDraw`; the acceptance and every completion that ends its command empty the draws. -/
theorem drawIsConsumedOnlyOnRequest : Obligations.DrawIsConsumedOnlyOnRequest := by
  refine ⟨fun s r => ⟨fun request => ?_, fun noRequest => ?_⟩, fun s w i busy fatal decodes => ?_,
    fun i s t busy answers ended => ?_⟩
  · obtain ⟨busy, genkey, _⟩ := (rndReq_iff s).mp request
    exact ⟨busy, genkey, congrArg Host.Outcome.next (offerDraw_consumed request r)⟩
  · exact congrArg Host.Outcome.next (offerDraw_ignored noRequest r)
  · refine ⟨acceptCommand w s, ?_, rfl, ?_⟩
    · rw [takeEvent_hostWrite_zero, issueCommand_accepted busy fatal decodes]
    · rintro rfl
      exact rndReq_acceptCommand (opcodeField_of_decode decodes) s
  · rw [exec_of_busy i busy, Host.Outcome.next.injEq] at answers
    subst answers
    rcases completionOf_ends_or_waits i s with ⟨_, _, noDraws⟩ | ⟨_, _, waits⟩
    · exact noDraws
    · rw [waits, busy] at ended
      cases ended

end Sys2Proof.Machine
end

section
/-! PROOFS. Every outcome of the generator (R164, R168): what a list of draws selects, and the KeyPair of every selection. -/
namespace Sys2Proof.Machine

/-- Step 3 of R164 goes on exactly while every later draw repeats the index of `p` (R166). -/
theorem selectQ_eq_waiting_iff {r0 : Draw} (inTable : r0 ≠ 15) (rest : List Draw) :
    selectQ primeTable (primeAt primeTable r0) rest = .waiting ↔ ∀ r ∈ rest, r = r0 := by
  induction rest with
  | nil => simp [selectQ]
  | cons r rest ih =>
    rw [selectQ, List.forall_mem_cons]
    split
    case isTrue fifteen =>
      exact ⟨nofun, fun ⟨same, _⟩ => absurd (same.symm.trans fifteen) inTable⟩
    case isFalse =>
      split
      case isTrue differs => exact ⟨nofun, fun ⟨same, _⟩ => absurd (congrArg _ same) differs⟩
      case isFalse same => rw [ih, and_iff_right (primeAt_inj.mp (not_not.mp same))]

/-- The whole selection goes on exactly while every draw is the first one, and that one is in the table (R166). -/
theorem selectPrimes_eq_waiting_iff (draws : List Draw) :
    selectPrimes primeTable draws = .waiting ↔ ¬ ∃ r0 rest, draws = r0 :: rest ∧ (r0 = 15 ∨ ∃ r ∈ rest, r ≠ r0) := by
  cases draws with
  | nil => simp [selectPrimes]
  | cons r0 rest =>
    rw [selectPrimes]
    split
    case isTrue fifteen => simp [fifteen]
    case isFalse inTable => simp [selectQ_eq_waiting_iff inTable, show ¬ r0 = 15#4 from inTable]

/-- What step 3 of R164 chooses is `p` and another prime of the table. -/
theorem selectQ_chosen {p p' q : Nat} {rest : List Draw} (h : selectQ primeTable p rest = .chosen p' q) :
    p' = p ∧ q ∈ candidatePrimes ∧ p ≠ q := by
  induction rest with
  | nil => simp [selectQ] at h
  | cons r rest ih =>
    rw [selectQ] at h
    split at h
    case isTrue => cases h
    case isFalse inTable =>
      split at h
      case isTrue differs =>
        cases h
        exact ⟨rfl, primeAt_mem inTable, differs.symm⟩
      case isFalse => exact ih h

/-- Two chosen primes are distinct primes of the table (R164). -/
theorem selectPrimes_chosen {p q : Nat} {draws : List Draw} (h : selectPrimes primeTable draws = .chosen p q) :
    p ∈ candidatePrimes ∧ q ∈ candidatePrimes ∧ p ≠ q := by
  cases draws with
  | nil => simp [selectPrimes] at h
  | cons r0 rest =>
    rw [selectPrimes] at h
    split at h
    case isTrue => cases h
    case isFalse inTable =>
      obtain ⟨rfl, hq, distinct⟩ := selectQ_chosen h
      exact ⟨primeAt_mem inTable, hq, distinct⟩

/-- What `GenerateKeyPair` can do: wait for a draw, raise RngRange, or return the KeyPair of two distinct primes of the table. -/
theorem generateKeyPair_cases (draws : List Draw) :
    (selectPrimes primeTable draws = .waiting ∧ generateKeyPair draws = .waiting) ∨
      (selectPrimes primeTable draws = .outOfRange ∧ generateKeyPair draws = .failed .rngRange) ∨
      ∃ p ∈ candidatePrimes, ∃ q ∈ candidatePrimes, p ≠ q ∧ selectPrimes primeTable draws = .chosen p q ∧
        generateKeyPair draws = .made (keyPairOf p q) := by
  cases selected : selectPrimes primeTable draws with
  | waiting => exact .inl ⟨rfl, by rw [generateKeyPair, selected]⟩
  | outOfRange => exact .inr (.inl ⟨rfl, generateKeyPair_outOfRange selected⟩)
  | chosen p q =>
    obtain ⟨hp, hq, distinct⟩ := selectPrimes_chosen selected
    refine .inr (.inr ⟨p, hp, q, hq, distinct, rfl, ?_⟩)
    rw [generateKeyPair, selected]
    exact deriveKey_eq_made hp hq distinct

/-- The generator waits exactly while the selection does (R166). -/
theorem generateKeyPair_eq_waiting_iff (draws : List Draw) :
    generateKeyPair draws = .waiting ↔ selectPrimes primeTable draws = .waiting := by
  rcases generateKeyPair_cases draws with ⟨selected, outcome⟩ | ⟨selected, outcome⟩ | ⟨_, _, _, _, _, selected, outcome⟩ <;>
    simp [selected, outcome]

/-- The one error of the generator is RngRange (R168 (d)). -/
theorem generateKeyPair_failed {draws : List Draw} {e : ErrorKind} (failed : generateKeyPair draws = .failed e) : e = .rngRange := by
  rcases generateKeyPair_cases draws with ⟨_, outcome⟩ | ⟨_, outcome⟩ | ⟨_, _, _, _, _, _, outcome⟩ <;>
    rw [outcome] at failed <;> cases failed
  rfl

/-- Settles O45: distinct primes of the table always make a KeyPair, so the one error left is RngRange. -/
theorem invariantViolationIsNeverRaised : Obligations.InvariantViolationIsNeverRaised :=
  fun _ violated => ErrorKind.noConfusion (generateKeyPair_failed violated)

/-- A KeyPair comes from two distinct primes of the table (R164). -/
theorem generateKeyPair_made {draws : List Draw} {k : KeyPair} (made : generateKeyPair draws = .made k) :
    ∃ p ∈ candidatePrimes, ∃ q ∈ candidatePrimes, p ≠ q ∧ k = keyPairOf p q := by
  rcases generateKeyPair_cases draws with ⟨_, outcome⟩ | ⟨_, outcome⟩ | ⟨p, hp, q, hq, distinct, _, outcome⟩ <;>
    rw [outcome] at made <;> cases made
  exact ⟨p, hp, q, hq, distinct, rfl⟩

end Sys2Proof.Machine
end

section
/-! PROOFS. The RSA invariants of every KeyPair that GENKEY can produce (R30, R168). -/
namespace Sys2Proof.Machine

/-- What R30 and R168 say of the six integers of a KeyPair. -/
structure RsaKey (k : KeyPair) : Prop where
  p_mem : k.p ∈ candidatePrimes
  q_mem : k.q ∈ candidatePrimes
  distinct : k.p ≠ k.q
  n_eq : k.n = k.p * k.q
  phi_eq : k.phi = (k.p - 1) * (k.q - 1)
  n_lower : 6 ≤ k.n
  n_upper : k.n ≤ 2021
  phi_lower : 2 ≤ k.phi
  phi_upper : k.phi ≤ 1932
  e_mem : k.e ∈ [3, 5, 7, 11, 65537]
  e_fallback : k.e = 65537 ↔ k.n = 6
  coprime : Nat.gcd k.e k.phi = 1
  inverse : (k.e * k.d) % k.phi = 1
  d_lower : 1 ≤ k.d
  d_lt : k.d < k.phi
  d_upper : k.d ≤ 1325

/-- The entries of the table are primes (R162). -/
theorem prime_of_mem_candidatePrimes : ∀ p ∈ candidatePrimes, p.Prime := by decide

/-- The smallest product of two distinct entries of the table is 2 * 3 (R168 (a)). -/
theorem six_le_mul : ∀ p ∈ candidatePrimes, ∀ q ∈ candidatePrimes, p ≠ q → 6 ≤ p * q := by decide

/-- The exponents of the pairs of the table, and the one pair that takes the fallback (R168 (b)). -/
theorem findValidE_of_pair :
    ∀ p ∈ candidatePrimes, ∀ q ∈ candidatePrimes, p ≠ q →
      findValidE ((p - 1) * (q - 1)) ∈ [3, 5, 7, 11, 65537] ∧ (findValidE ((p - 1) * (q - 1)) = 65537 ↔ p * q = 6) := by
  decide

/-- The bound of R168 (e) on the decryption exponents of the pairs of the table. -/
theorem keyPairOf_d_le : ∀ p ∈ candidatePrimes, ∀ q ∈ candidatePrimes, p ≠ q → (keyPairOf p q).d ≤ 1325 := by
  decide

/-- Two distinct primes of the table make an RSA key: the inverse is R136's, the rest is R168's table of the pairs. -/
theorem rsaKey_keyPairOf {p q : Nat} (hp : p ∈ candidatePrimes) (hq : q ∈ candidatePrimes) (distinct : p ≠ q) :
    RsaKey (keyPairOf p q) := by
  obtain ⟨nUpper, phiLower, phiUpper⟩ := candidatePrimes_bounds p hp q hq distinct
  obtain ⟨eMem, eFallback⟩ := findValidE_of_pair p hp q hq distinct
  obtain ⟨_, _, _, dLt⟩ := keyPairOf_bounds hp hq distinct
  have dCast := natCast_keyPairOf_d hp hq distinct
  have coprime : Nat.gcd (keyPairOf p q).e (keyPairOf p q).phi = 1 := gcd_findValidE (by omega) (by omega)
  obtain ⟨dLower, _, inverse⟩ := modInverse_spec (m := (keyPairOf p q).phi) phiLower coprime
  rw [← dCast] at dLower inverse
  exact {
    p_mem := hp, q_mem := hq, distinct := distinct, n_eq := rfl, phi_eq := rfl, n_lower := six_le_mul p hp q hq distinct
    n_upper := nUpper, phi_lower := phiLower, phi_upper := phiUpper, e_mem := eMem, e_fallback := eFallback
    coprime := coprime, inverse := by exact_mod_cast inverse, d_lower := by exact_mod_cast dLower, d_lt := dLt
    d_upper := keyPairOf_d_le p hp q hq distinct }

/-- Every KeyPair GENKEY can produce is an RSA key. -/
theorem rsaKey_of_made {draws : List Draw} {k : KeyPair} (made : generateKeyPair draws = .made k) : RsaKey k := by
  obtain ⟨p, hp, q, hq, distinct, rfl⟩ := generateKeyPair_made made
  exact rsaKey_keyPairOf hp hq distinct

/-- Settles O44: the parts of `RsaKey`, with the primality of the table's entries. -/
theorem generatedKeyPairsAreRsaKeys : Obligations.GeneratedKeyPairsAreRsaKeys := by
  intro draws k made
  have rsa := rsaKey_of_made made
  exact ⟨rsa.distinct, prime_of_mem_candidatePrimes _ rsa.p_mem, prime_of_mem_candidatePrimes _ rsa.q_mem, rsa.p_mem, rsa.q_mem,
    rsa.n_eq, rsa.phi_eq, rsa.n_lower, rsa.n_upper, rsa.phi_lower, rsa.phi_upper, rsa.e_mem, rsa.e_fallback, rsa.coprime,
    rsa.inverse, rsa.d_lower, rsa.d_lt, rsa.d_upper⟩

/-- `trunc32` keeps every value below 2^32 (R9). -/
theorem toNat_trunc32 {v : Nat} (below : v < 2 ^ 32) : (trunc32 v).toNat = v :=
  (BitVec.toNat_ofNat v 32).trans (Nat.mod_eq_of_lt below)

/-- The entries of the table are small (R162). -/
theorem le_of_mem_candidatePrimes : ∀ p ∈ candidatePrimes, p ≤ 47 := by decide

/-- The public exponents of R168 (b) fit a register. -/
theorem RsaKey.e_upper {k : KeyPair} (rsa : RsaKey k) : k.e ≤ 65537 := by
  have bounded : ∀ e ∈ [3, 5, 7, 11, 65537], e ≤ 65537 := by decide
  exact bounded _ rsa.e_mem

/-- No value of a KeyPair is truncated in its KEY register (R9, R116). -/
theorem RsaKey.toNat_keyRegsOf {k : KeyPair} (rsa : RsaKey k) :
    (keyRegsOf k).p.toNat = k.p ∧ (keyRegsOf k).q.toNat = k.q ∧ (keyRegsOf k).n.toNat = k.n ∧ (keyRegsOf k).phi.toNat = k.phi ∧
      (keyRegsOf k).e.toNat = k.e ∧ (keyRegsOf k).d.toNat = k.d := by
  have pUpper := le_of_mem_candidatePrimes _ rsa.p_mem
  have qUpper := le_of_mem_candidatePrimes _ rsa.q_mem
  have nUpper := rsa.n_upper
  have phiUpper := rsa.phi_upper
  have eUpper := rsa.e_upper
  have dUpper := rsa.d_upper
  refine ⟨?_, ?_, ?_, ?_, ?_, ?_⟩ <;> exact toNat_trunc32 (by omega)

/-- The KEY registers of an RSA key hold a KeyPair in the sense of R30. -/
theorem RsaKey.keyPairValid {k : KeyPair} (rsa : RsaKey k) : KeyPairValid (keyRegsOf k) := by
  obtain ⟨p, q, n, phi, e, d⟩ := rsa.toNat_keyRegsOf
  have distinct : (keyRegsOf k).p ≠ (keyRegsOf k).q := fun same => rsa.distinct (by rw [← p, ← q, same])
  rw [KeyPairValid, p, q, n, phi, e, d]
  exact ⟨rsa.p_mem, rsa.q_mem, prime_of_mem_candidatePrimes _ rsa.p_mem, prime_of_mem_candidatePrimes _ rsa.q_mem, distinct,
    rsa.n_eq, rsa.phi_eq, rsa.n_lower, rsa.n_upper, rsa.phi_lower, rsa.phi_upper, rsa.e_mem, rsa.coprime, rsa.d_lower,
    rsa.d_upper, rsa.d_lt, rsa.inverse⟩

/-- Every event keeps the KEY registers valid: a change of them is reset, or the commit of a KeyPair. -/
theorem takeEvent_keyInv {ev : Event} {s t : State} (inv : KeyInv s) (h : takeEvent ev s = .next t) : KeyInv t := by
  intro keyvalid
  by_cases changed : t.key ≠ s.key ∨ t.status.keyvalid ≠ s.status.keyvalid
  · rcases keyRegistersAreWrittenByGenkeyOnly ev s t h changed with rfl | ⟨_, _, _, _, _, k, made, key⟩
    · cases h
      cases keyvalid
    · rw [key]
      exact (rsaKey_of_made made).keyPairValid
  · obtain ⟨key, flag⟩ : t.key = s.key ∧ t.status.keyvalid = s.status.keyvalid := by simpa using changed
    rw [key]
    exact inv (flag ▸ keyvalid)

/-- Settles O56: the invariant does not look at the coming events, and every event keeps it. -/
theorem stepKeepsTheKeyPairValid : Obligations.StepKeepsTheKeyPairValid :=
  fun _ _ => step_keeps (P := KeyInv) (fun _ _ inv => inv) fun _ _ _ => takeEvent_keyInv

/-- A completion does not set FATAL: the errors it can raise are DivideByZero and RngRange (R168 (d), R194). -/
theorem completionOf_fatal {s : State} (notFatal : s.status.fatal = false) (i : Instr) :
    (completionOf i s).status.fatal = false := by
  rcases completionOf_cases i s with ⟨_, _, v, result⟩ | ⟨_, inverse⟩ | ⟨_, _, zeroModulus⟩ | ⟨_, _, waits⟩ |
    ⟨_, e, failed, raised⟩ | ⟨_, k, _, made⟩
  · rw [result]; exact notFatal
  · rw [inverse]; exact notFatal
  · simp [zeroModulus, raiseError, notFatal]
  · rw [waits]; exact notFatal
  · obtain rfl := generateKeyPair_failed failed
    simp [raised, raiseError, notFatal]
  · rw [made]; exact notFatal

/-- No event sets FATAL. -/
theorem takeEvent_fatal {ev : Event} {s t : State} (notFatal : s.status.fatal = false) (h : takeEvent ev s = .next t) :
    t.status.fatal = false := by
  rcases takeEvent_register_cases h with ⟨_, status, _⟩ | ⟨w, _, rfl⟩ | ⟨_, _, i, _, rfl⟩ | ⟨_, rfl⟩
  · rw [status, notFatal]
  · rw [(issueCommand_keeps_key w s).1, notFatal]
  · exact completionOf_fatal notFatal i
  · rfl

/-- Settles O57: no event sets FATAL, since no sequence of draws raises InvariantViolation. -/
theorem stepNeverSetsFatal : Obligations.StepNeverSetsFatal :=
  fun _ _ => step_keeps (P := fun s => s.status.fatal = false) (fun _ _ notFatal => notFatal) fun _ _ _ => takeEvent_fatal

/-- Settles O46: the pairs of R168 (b) are evaluated one by one. -/
theorem exponentCountsOverThePairs : Obligations.ExponentCountsOverThePairs := by
  unfold Obligations.ExponentCountsOverThePairs
  decide

end Sys2Proof.Machine
end

section
/-! PROOFS. The completion of GENKEY on each kind of draw list (43_keygen.md R164 to R169, 60_exceptions.md R193). -/
namespace Sys2Proof.Machine

/-- GENKEY whose draws make a KeyPair commits it (R169). -/
theorem completionOf_genkey_made {s : State} {k : KeyPair} (made : generateKeyPair s.draws = .made k) :
    completionOf .genkey s = completeKey (keyRegsOf k) s := by
  simp only [completionOf, completeGenkey, made]

/-- GENKEY whose draws end in an error raises it (R167, R193). -/
theorem completionOf_genkey_failed {s : State} {e : ErrorKind} (failed : generateKeyPair s.draws = .failed e) :
    completionOf .genkey s = raiseError e s := by
  simp only [completionOf, completeGenkey, failed]

/-- GENKEY whose draws do not decide stays as it is (R166). -/
theorem completionOf_genkey_waiting {s : State} (waiting : generateKeyPair s.draws = .waiting) : completionOf .genkey s = s := by
  simp only [completionOf, completeGenkey, waiting]

/-- Every `phi` of at least 4 has a coprime candidate below it: `phi - 1` or `phi - 2`, the odd one of the two (R160). -/
theorem exists_coprime_candidate {phi : Nat} (h : 4 ≤ phi) : ∃ x, 3 ≤ x ∧ x < phi ∧ x % 2 = 1 ∧ Nat.gcd x phi = 1 := by
  rcases Nat.mod_two_eq_zero_or_one phi with even | odd
  · obtain ⟨x, rfl⟩ : ∃ x, phi = x + 1 := ⟨phi - 1, by omega⟩
    exact ⟨x, by omega, by omega, by omega, by simp⟩
  · obtain ⟨x, rfl⟩ : ∃ x, phi = x + 2 := ⟨phi - 2, by omega⟩
    have coprime : Nat.Coprime x 2 := Nat.coprime_two_right.mpr (Nat.odd_iff.mpr (by omega))
    exact ⟨x, by omega, by omega, by omega, Nat.coprime_self_add_right.mpr coprime⟩

/-- `FindValidE` computes the value of R160. -/
theorem isFirstExponent_findValidE (phi : Nat) : IsFirstExponent phi (findValidE phi) := by
  rcases exponentScan_spec phi phi 3 (by omega) with ⟨lower, below, odd, coprime, first⟩ | ⟨fallback, noCandidate⟩
  · exact .inr ⟨by omega, lower, below, odd, coprime, first⟩
  · refine .inl ⟨Nat.not_lt.mp fun large => ?_, fallback⟩
    obtain ⟨x, lower, below, odd, coprime⟩ := exists_coprime_candidate large
    exact noCandidate x lower below odd coprime

/-- Settles O39: the deciding draws make the KeyPair of their two entries, an RSA key whose exponent is R160's. -/
theorem genkeyCommitsTheKeyPair : Obligations.GenkeyCommitsTheKeyPair := by
  intro s r0 rk n busy draws inTable rkInTable differs
  have made : generateKeyPair s.draws = .made (keyPairOf (primeAt primeTable r0) (primeAt primeTable rk)) :=
    draws ▸ generateKeyPair_deciding inTable rkInTable differs n []
  have rsa := rsaKey_of_made made
  obtain ⟨p, q, _, phi, e, _⟩ := rsa.toNat_keyRegsOf
  refine ⟨_, (exec_of_busy .genkey busy).trans (congrArg _ (completionOf_genkey_made made)), ?_, ?_, rsa.keyPairValid, ?_, rfl, rfl,
    ⟨rfl, rfl, rfl, rfl, rfl, rfl⟩⟩
  · exact p.trans (by rw [← primeTable_eq]; rfl)
  · exact q.trans (by rw [← primeTable_eq]; rfl)
  · have first := isFirstExponent_findValidE (keyPairOf (primeAt primeTable r0) (primeAt primeTable rk)).phi
    rw [← phi] at first
    exact e.symm ▸ phi ▸ first

/-- Equal draws in the table, none or more, followed by a 15 end in RngRange (R164, R193). -/
theorem generateKeyPair_append_fifteen {ds : List Draw} (repeats : ∀ r ∈ ds, r ≠ 15 ∧ ds.head? = some r) :
    generateKeyPair (ds ++ [15]) = .failed .rngRange := by
  cases ds with
  | nil => exact generateKeyPair_outOfRange (selectPrimes_fifteen _ [])
  | cons r0 rest =>
    obtain ⟨inTable, _⟩ := repeats r0 List.mem_cons_self
    have equal : ∀ r ∈ rest, r = r0 := fun r member => by
      obtain ⟨_, first⟩ := repeats r (List.mem_cons_of_mem r0 member)
      exact (Option.some.inj first).symm
    rw [List.eq_replicate_of_mem equal, List.cons_append]
    exact generateKeyPair_outOfRange (selectPrimes_outOfRange inTable _ _ [])

/-- Settles O40: the error completion writes STATUS alone; the GENKEY issued next is accepted, since BUSY = FATAL = 0 after it. -/
theorem drawOutsideTheTableRaisesRngRange : Obligations.DrawOutsideTheTableRaisesRngRange := by
  intro s ds busy draws repeats
  have failed : generateKeyPair s.draws = .failed .rngRange := draws ▸ generateKeyPair_append_fifteen repeats
  have status : (raiseError .rngRange s).status = { s.status with busy := false, done := true, err := true, errcode := 3 } := by
    simp [raiseError_status, errorCode]
  refine ⟨_, (exec_of_busy .genkey busy).trans (congrArg _ (completionOf_genkey_failed failed)), status, rfl, rfl,
    ⟨rfl, rfl, rfl, rfl, rfl, rfl⟩, toNat_statusWord_failed (by decide), fun notFatal => ?_⟩
  have stillNotFatal : (raiseError .rngRange s).status.fatal = false := by rw [status]; exact notFatal
  have decodes : decode (encode .genkey) = .ok .genkey := (decode_eq_ok_iff_eq_encode _ _).mpr rfl
  refine ⟨acceptCommand (encode .genkey) (raiseError .rngRange s), ?_, rfl, rfl, rfl, rfl⟩
  rw [takeEvent_hostWrite_zero, issueCommand_accepted rfl stillNotFatal decodes]

/-- Settles O41: repeated draws do not decide, so the completion is not enabled and `rnd_req` = 1. -/
theorem genkeyWaitsForADecidingDraw : Obligations.GenkeyWaitsForADecidingDraw := by
  intro s r0 n busy genkey inTable draws
  have undecided : selectPrimes primeTable s.draws = .waiting := draws ▸ selectPrimes_replicate inTable n primeTable
  have waits := completionOf_genkey_waiting ((generateKeyPair_eq_waiting_iff s.draws).mpr undecided)
  exact ⟨(exec_of_busy .genkey busy).trans (congrArg _ waits), (rndReq_iff s).mpr ⟨busy, genkey, undecided⟩⟩

/-- Settles O42: GENKEY's completion ends the command unless the generator waits, which it does exactly while the selection does. -/
theorem genkeyCompletesExactlyWhenTheDrawsDecide : Obligations.GenkeyCompletesExactlyWhenTheDrawsDecide := by
  intro s busy genkey
  refine ⟨completionOf .genkey s, (coreTurn_of_busy busy genkey).trans (exec_of_busy .genkey busy), ?_⟩
  rw [← not_iff_not, ← selectPrimes_eq_waiting_iff, ← generateKeyPair_eq_waiting_iff, Bool.not_eq_false]
  constructor
  · intro running
    rcases completionOf_ends_or_waits .genkey s with ⟨ended, _⟩ | ⟨_, waiting, _⟩
    · rw [ended] at running
      cases running
    · exact waiting
  · intro waiting
    rw [completionOf_genkey_waiting waiting, busy]

end Sys2Proof.Machine
end

section
/-! PROOFS. The results of the commands other than GENKEY (41_number_theory.md, 42_modpow.md, 43_keygen.md section 1,
44_encrypt_decrypt.md), each with what its completion leaves alone. -/
namespace Sys2Proof.Machine

/-- A completion that writes a result below 2^32 writes that value, BUSY and DONE, and nothing else a host can see (R116). -/
theorem exec_writes_result {i : Instr} {s : State} {v : Nat} (busy : s.status.busy = true)
    (outcome : completionOf i s = completeResult v s) (below : v < 2 ^ 32) :
    ∃ t, exec i s = .next t ∧ t.result.toNat = v ∧ t.status = { s.status with busy := false, done := true } ∧ t.key = s.key ∧
      CompletionFrame s t :=
  ⟨_, (exec_of_busy i busy).trans (congrArg _ outcome), toNat_trunc32 below, rfl, rfl, ⟨rfl, rfl, rfl, rfl, rfl, rfl⟩⟩

/-- An odd number of at least 3 is prime exactly when no odd candidate from 3 up to its square root divides it: its least prime factor
would be one (R130). -/
theorem prime_iff_no_odd_divisor {num : Nat} (lower : 3 ≤ num) (odd : num % 2 = 1) :
    num.Prime ↔ ∀ k, 3 ≤ k → k % 2 = 1 → k * k ≤ num → num % k ≠ 0 := by
  constructor
  · intro prime k hk _ square divides
    rcases (Nat.dvd_prime prime).mp (Nat.dvd_of_mod_eq_zero divides) with rfl | rfl
    · omega
    · nlinarith
  · intro noDivisor
    by_contra composite
    have divides : num.minFac ∣ num := num.minFac_dvd
    have square : num.minFac ^ 2 ≤ num := Nat.minFac_sq_le_self (by omega) composite
    have factor : 2 ≤ num.minFac := (Nat.minFac_prime (by omega)).two_le
    have factorOdd : num.minFac % 2 = 1 := Nat.odd_iff.mp ((Nat.odd_iff.mpr odd).of_dvd_nat divides)
    exact noDivisor num.minFac (by omega) factorOdd (by rw [← pow_two]; exact square) (Nat.mod_eq_zero_of_dvd divides)

/-- Settles O29: 2 is prime, every other even number is not, and the odd ones go through the loop. -/
theorem trialDivisionDecidesPrimality : Obligations.TrialDivisionDecidesPrimality := by
  intro num
  rw [isPrime]
  split
  case isTrue small => exact ⟨nofun, fun prime => absurd prime.two_le (by omega)⟩
  case isFalse lower =>
    split
    case isTrue two => exact ⟨fun _ => two ▸ Nat.prime_two, fun _ => rfl⟩
    case isFalse notTwo =>
      split
      case isTrue even =>
        exact ⟨nofun, fun prime => absurd (prime.eq_two_or_odd.resolve_left notTwo) (by omega)⟩
      case isFalse odd =>
        rw [trialDivide_iff num num 3 (by omega), prime_iff_no_odd_divisor (by omega) (by omega)]

/-- Settles O26: RESULT is the Boolean of the trial division, which decides primality. -/
theorem isprimeWritesPrimality : Obligations.IsprimeWritesPrimality := by
  intro s busy
  have below : boolResult (isPrime (operand0 s)) < 2 ^ 32 := by
    cases isPrime (operand0 s) <;> decide
  obtain ⟨t, answers, result, unchanged⟩ := exec_writes_result (i := .isprime) busy rfl below
  have decides := trialDivisionDecidesPrimality (operand0 s)
  refine ⟨t, answers, fun prime => BitVec.eq_of_toNat_eq ?_, fun composite => BitVec.eq_of_toNat_eq ?_, unchanged⟩
  · rw [result, decides.mpr prime]
    rfl
  · rw [result, Bool.eq_false_iff.mpr (mt decides.mp composite)]
    rfl

/-- The greatest common divisor of two register values fits a register. -/
theorem gcd_lt_of_lt {a b c : Nat} (ha : a < c) (hb : b < c) : Nat.gcd a b < c := by
  rcases Nat.eq_zero_or_pos b with rfl | positive
  · rwa [Nat.gcd_zero_right]
  · exact (Nat.gcd_le_right a positive).trans_lt hb

/-- Settles O27: the Euclid loop computes the greatest common divisor, which fits RESULT. -/
theorem gcdWritesTheGreatestCommonDivisor : Obligations.GcdWritesTheGreatestCommonDivisor := by
  intro s busy
  have outcome : completionOf .gcd s = completeResult (Nat.gcd (operand0 s) (operand1 s)) s := by
    rw [completionOf, euclidGcd_eq_gcd]
  exact exec_writes_result busy outcome (gcd_lt_of_lt s.latch.op0.isLt s.latch.op1.isLt)

/-- Settles O28: `ModInverse` has the value of its row of R136; its image in RESULT is exact but for the sentinel's. -/
theorem modinvWritesTheInverseOrTheSentinel : Obligations.ModinvWritesTheInverseOrTheSentinel := by
  intro s busy
  have value : IsInverseValue (operand0 s) (operand1 s) (modInverse (operand0 s) (operand1 s)) := isInverseValue_modInverse _ _
  have modulus : operand1 s < 2 ^ 32 := s.latch.op1.isLt
  refine ⟨_, _, exec_of_busy .modinv busy, value, (inverseResult_eq_sentinel_iff modulus value).mpr, fun notSentinel => ?_,
    rfl, rfl, ⟨rfl, rfl, rfl, rfl, rfl, rfl⟩⟩
  obtain ⟨lower, upper⟩ := value.eq_neg_one_or_bounded.resolve_left notSentinel
  exact toNat_inverseResult lower (by omega)

/-- With a modulus that is not zero, MODPOW, ENCRYPT and DECRYPT write the modular power (R151, R180, R181). -/
theorem completionOf_power {i : Instr} {s : State} (power : i = .modpow ∨ i = .encrypt ∨ i = .decrypt)
    (nonzero : s.latch.op2 ≠ 0) :
    completionOf i s = completeResult (powerValue (operand0 s) (operand1 s) (operand2 s)) s := by
  have positive : 0 < operand2 s := BitVec.toNat_pos_of_ne_zero nonzero
  have writes : completePower s = completeResult (powerValue (operand0 s) (operand1 s) (operand2 s)) s := by
    rw [completePower, modPow_eq_powerValue positive]
  rcases power with rfl | rfl | rfl <;> exact writes

/-- A modular power fits RESULT (R154). -/
theorem powerValue_lt_word {modulus : Word} (nonzero : modulus ≠ 0) (base exp : Nat) :
    powerValue base exp modulus.toNat < 2 ^ 32 :=
  (powerValue_lt_max (BitVec.toNat_pos_of_ne_zero nonzero) base exp).trans (max_lt modulus.isLt (by decide))

/-- Settles O31: the three commands share one completion, which writes the value of R154. -/
theorem powerCommandsWriteTheModularPower : Obligations.PowerCommandsWriteTheModularPower :=
  fun _ _ power busy nonzero =>
    exec_writes_result busy (completionOf_power power nonzero) (powerValue_lt_word nonzero _ _)

/-- Reducing the base first does not change the modular power (R150, R184). -/
theorem powerValue_mod (base exp modulus : Nat) : powerValue (base % modulus) exp modulus = powerValue base exp modulus := by
  rw [powerValue, powerValue, ← Nat.pow_mod]

/-- Settles O35: both states' results are modular powers, of the message and of its residue. -/
theorem messageIsReducedFirst : Obligations.MessageIsReducedFirst := by
  intro i s message busy nonzero
  have power : i = .modpow ∨ i = .encrypt ∨ i = .decrypt := .inr message
  refine ⟨_, (exec_of_busy i busy).trans (congrArg _ (completionOf_power power nonzero)), rfl, fun s' busy' op0 op1 op2 => ?_⟩
  refine ⟨_, (exec_of_busy i busy').trans (congrArg _ (completionOf_power power (op2 ▸ nonzero))), ?_⟩
  have sameValue : powerValue (operand0 s') (operand1 s') (operand2 s') = powerValue (operand0 s) (operand1 s) (operand2 s) := by
    rw [operand0, operand1, operand2, op0, op1, op2, powerValue_mod]
    rfl
  exact congrArg trunc32 sameValue

/-- The public exponent fits RESULT: it is the fallback or below `phi` (R160). -/
theorem findValidE_lt_word {phi : Nat} (below : phi < 2 ^ 32) : findValidE phi < 2 ^ 32 := by
  rcases isFirstExponent_findValidE phi with ⟨_, fallback⟩ | ⟨_, _, lt, _⟩
  · rw [fallback]; decide
  · exact lt.trans below

/-- Settles O36: the exponent scan computes the value of R160, which fits RESULT. -/
theorem findeWritesTheFirstExponent : Obligations.FindeWritesTheFirstExponent := by
  intro s busy
  obtain ⟨t, answers, result, unchanged⟩ := exec_writes_result (i := .finde) busy rfl (findValidE_lt_word s.latch.op0.isLt)
  exact ⟨t, answers, result ▸ isFirstExponent_findValidE _, unchanged⟩

end Sys2Proof.Machine
end

section
/-! PROOFS. The round trip of encryption and decryption (44_encrypt_decrypt.md R183): Fermat's little theorem modulo each of the two
primes, put together modulo their product. -/
namespace Sys2Proof.Machine

/-- An exponent that is 1 modulo `p - 1` leaves every base as it is modulo the prime `p`, a base divisible by `p` included. -/
theorem pow_modEq_self {p x : Nat} (prime : p.Prime) (positive : 0 < x) (one : p - 1 ∣ x - 1) (m : Nat) : m ^ x ≡ m [MOD p] := by
  have fermat := Int.ModEq.pow_eq_pow prime one positive one_pos m
  rw [pow_one] at fermat
  exact_mod_cast fermat

/-- Encrypting and decrypting under an RSA key is raising to the power `e * d`, which is 1 modulo both `p - 1` and `q - 1`. -/
theorem RsaKey.pow_pow_mod {k : KeyPair} (rsa : RsaKey k) {m : Nat} (below : m < k.n) : (m ^ k.e % k.n) ^ k.d % k.n = m := by
  have positive : 0 < k.e * k.d := Nat.pos_of_ne_zero fun zero => by
    have inverse := rsa.inverse
    simp [zero] at inverse
  have phi : (k.p - 1) * (k.q - 1) ∣ k.e * k.d - 1 := by
    rw [← rsa.phi_eq, ← rsa.inverse]
    exact Nat.dvd_sub_mod (k.e * k.d)
  have hp := prime_of_mem_candidatePrimes _ rsa.p_mem
  have hq := prime_of_mem_candidatePrimes _ rsa.q_mem
  have modP : m ^ (k.e * k.d) ≡ m [MOD k.p] := pow_modEq_self hp positive (dvd_of_mul_right_dvd phi) m
  have modQ : m ^ (k.e * k.d) ≡ m [MOD k.q] := pow_modEq_self hq positive (dvd_of_mul_left_dvd phi) m
  have modN : m ^ (k.e * k.d) ≡ m [MOD k.n] := by
    rw [rsa.n_eq]
    exact (Nat.modEq_and_modEq_iff_modEq_mul ((Nat.coprime_primes hp hq).mpr rsa.distinct)).mp ⟨modP, modQ⟩
  calc (m ^ k.e % k.n) ^ k.d % k.n = m ^ (k.e * k.d) % k.n := by rw [← Nat.pow_mod, pow_mul]
    _ = m % k.n := modN
    _ = m := Nat.mod_eq_of_lt below

/-- Settles O34: the round trip of an RSA key; the draws 0 and 1 make the key of 2 and 3; with the exponents 2 and 2 modulo 3 the message 2
is lost. -/
theorem decryptUndoesEncrypt : Obligations.DecryptUndoesEncrypt := by
  refine ⟨fun draws k m made below => ?_, ⟨[0, 1], _, generateKeyPair_deciding (n := 0) (by decide) (by decide) (by decide) [],
    by decide, by decide, by decide⟩, ⟨2, 2, 2, 3, 1, by decide, rfl, by decide⟩⟩
  have rsa := rsaKey_of_made made
  have modulus : 2 ≤ k.n := le_trans (by decide) rsa.n_lower
  have power (base exp : Nat) : modPow base exp k.n = .ok (base ^ exp % k.n) := by
    rw [modPow_eq_powerValue (by omega), powerValue_of_two_le modulus]
  exact ⟨m ^ k.e % k.n, power m k.e, by rw [power, rsa.pow_pow_mod below]⟩

end Sys2Proof.Machine
end

section
/-! PROOFS. A completion is a function of the latches and the draws (10_state.md R33, 40_command_lifecycle.md R120): the same operation, with
the same value, in any two states that agree on those. -/
namespace Sys2Proof.Machine

section
variable {s s' : State} (latch : s.latch = s'.latch)
include latch

/-- The completion shared by MODPOW, ENCRYPT and DECRYPT takes the same branch with the same value. -/
theorem completePower_agree :
    (∃ v, completePower s = completeResult v s ∧ completePower s' = completeResult v s') ∨
      (∃ e, completePower s = raiseError e s ∧ completePower s' = raiseError e s') := by
  simp only [completePower, operand0, operand1, operand2, latch]
  cases modPow s'.latch.op0.toNat s'.latch.op1.toNat s'.latch.op2.toNat with
  | ok v => exact .inl ⟨v, rfl, rfl⟩
  | error e => exact .inr ⟨e, rfl, rfl⟩

/-- The same of every command, by the kind of its completion. -/
theorem completionOf_agree (draws : s.draws = s'.draws) (i : Instr) :
    (i ≠ .modinv ∧ i ≠ .genkey ∧ ∃ v, completionOf i s = completeResult v s ∧ completionOf i s' = completeResult v s') ∨
      (i = .modinv ∧ ∃ v, completionOf i s = completeInverse v s ∧ completionOf i s' = completeInverse v s') ∨
      (i ≠ .modinv ∧ ∃ e, completionOf i s = raiseError e s ∧ completionOf i s' = raiseError e s') ∨
      (i = .genkey ∧ completionOf i s = s ∧ completionOf i s' = s') ∨
      (i = .genkey ∧ ∃ k, completionOf i s = completeKey k s ∧ completionOf i s' = completeKey k s') := by
  have op0 : operand0 s = operand0 s' := congrArg (·.op0.toNat) latch
  have op1 : operand1 s = operand1 s' := congrArg (·.op1.toNat) latch
  cases i with
  | isprime | gcd | finde =>
    refine .inl ⟨by decide, by decide, _, rfl, ?_⟩
    simp only [completionOf, op0, op1]
  | modinv =>
    refine .inr (.inl ⟨rfl, _, rfl, ?_⟩)
    simp only [completionOf, op0, op1]
  | modpow | encrypt | decrypt =>
    rcases completePower_agree latch with result | error
    · exact .inl ⟨by decide, by decide, result⟩
    · exact .inr (.inr (.inl ⟨by decide, error⟩))
  | genkey =>
    cases outcome : generateKeyPair s'.draws with
    | waiting =>
      exact .inr (.inr (.inr (.inl ⟨rfl, completionOf_genkey_waiting (draws ▸ outcome), completionOf_genkey_waiting outcome⟩)))
    | failed e =>
      exact .inr (.inr (.inl ⟨by decide, e, completionOf_genkey_failed (draws ▸ outcome), completionOf_genkey_failed outcome⟩))
    | made k =>
      exact .inr (.inr (.inr (.inr ⟨rfl, _, completionOf_genkey_made (draws ▸ outcome), completionOf_genkey_made outcome⟩)))

end

/-- Settles O23: each kind of completion sets the registers it writes to the same value in both states. -/
theorem resultsDependOnLatchesAndDrawsOnly : Obligations.ResultsDependOnLatchesAndDrawsOnly := by
  intro i s s' latch draws busy busy' err err'
  have sameErr : s.status.err = s'.status.err := err.trans err'.symm
  have noErr : ¬ s.status.err = true := Bool.eq_false_iff.mp err
  refine ⟨_, _, exec_of_busy i busy, exec_of_busy i busy', ?_⟩
  rcases completionOf_agree latch draws i with ⟨notModinv, notGenkey, v, result, result'⟩ | ⟨rfl, v, inverse, inverse'⟩ |
    ⟨notModinv, e, failed, failed'⟩ | ⟨rfl, waits, waits'⟩ | ⟨rfl, k, made, made'⟩
  · rw [result, result']
    exact ⟨rfl, sameErr, (absurd · noErr), fun _ _ => rfl, fun modinv => absurd modinv notModinv,
      fun genkey => absurd genkey notGenkey⟩
  · rw [inverse, inverse']
    exact ⟨rfl, sameErr, (absurd · noErr), fun _ _ => rfl, fun _ => rfl, fun genkey => absurd genkey (by decide)⟩
  · rw [failed, failed']
    exact ⟨rfl, rfl, fun _ => rfl, fun _ success => absurd success Bool.false_ne_true.symm,
      fun modinv => absurd modinv notModinv, fun _ _ success => absurd success Bool.false_ne_true.symm⟩
  · rw [waits, waits']
    exact ⟨busy.trans busy'.symm, sameErr, (absurd · noErr), fun notGenkey => absurd rfl notGenkey,
      fun modinv => absurd modinv (by decide), fun _ ended => absurd (ended.symm.trans busy) Bool.false_ne_true⟩
  · rw [made, made']
    exact ⟨rfl, sameErr, (absurd · noErr), fun notGenkey => absurd rfl notGenkey, fun modinv => absurd modinv (by decide),
      fun _ _ _ => rfl⟩

end Sys2Proof.Machine
end

section
/-! PROOFS. One clock edge (20_memory.md R74, R75, 90_conflicts.md C4): the host access of the cycle, then a requested draw, then the
completion due. -/
namespace Sys2Proof.Machine

/-- Events in two parts: the second part goes on where the first one ended. -/
theorem takeEvents_append {first : List Event} {s u : State} (h : takeEvents first s = .next u) (later : List Event) :
    takeEvents (first ++ later) s = takeEvents later u := by
  induction first generalizing s with
  | nil =>
    cases h
    rfl
  | cons ev rest ih =>
    simp only [List.cons_append, takeEvents] at h ⊢
    cases outcome : takeEvent ev s with
    | next t =>
      rw [outcome] at h
      exact ih h
    | fault r => simp [outcome] at h
    | refused r => simp [outcome] at h

/-- One event alone. -/
theorem takeEvents_singleton (ev : Event) (s : State) : takeEvents [ev] s = takeEvent ev s := by
  simp only [takeEvents]
  cases takeEvent ev s <;> rfl

/-- What the host access of a cycle does: a write, a recorded read, or nothing (R74). -/
def hostAccess (p : Pins) (s : State) : State :=
  if p.hSel = true then (if p.hWe = true then hostWrite p.hAddr p.hWdata s else s.setRdata (hostRead p.hAddr s)) else s

/-- The host's events of a cycle have the effect of its access. -/
theorem takeEvents_hostEvents (p : Pins) (s : State) : takeEvents (hostEvents p) s = .next (hostAccess p s) := by
  unfold hostEvents hostAccess
  cases p.hSel with
  | false => rfl
  | true => cases p.hWe <;> rfl

/-- While BUSY = 1 the access moves neither the command in progress nor its draws. -/
theorem hostAccess_running (p : Pins) {s : State} (busy : s.status.busy = true) :
    (hostAccess p s).status.busy = true ∧ (hostAccess p s).latch = s.latch ∧ (hostAccess p s).draws = s.draws := by
  unfold hostAccess
  split
  case isTrue =>
    split
    case isTrue => exact hostWrite_running p.hAddr p.hWdata s busy
    case isFalse => exact ⟨busy, rfl, rfl⟩
  case isFalse => exact ⟨busy, rfl, rfl⟩

/-- The access leaves `rnd_req` = 1 as it is. -/
theorem rndReq_hostAccess (p : Pins) {s : State} (request : rndReq s = true) : rndReq (hostAccess p s) = true := by
  obtain ⟨busy, genkey, undecided⟩ := (rndReq_iff s).mp request
  obtain ⟨stillBusy, latch, draws⟩ := hostAccess_running p busy
  rw [rndReq_iff, latch, draws]
  exact ⟨stillBusy, genkey, undecided⟩

/-- The CORE's own events of an edge without reset: the draw consumed or the completion due, judged at the start of the cycle. -/
def coreEvents (p : Pins) (finishes : Bool) (s : State) : List Event :=
  (if p.rndValid && rndReq s then [.draw p.rndIdx] else []) ++ (if finishes && s.status.busy && !rndReq s then [.completion] else [])

/-- Without reset an edge is the access, then the CORE's own events. -/
theorem clockEdge_eq {p : Pins} (noReset : p.rst = false) (finishes : Bool) (s : State) :
    clockEdge p finishes s = takeEvents (coreEvents p finishes s) (hostAccess p s) := by
  rw [clockEdge, edgeEvents, noReset, if_neg Bool.false_ne_true, List.append_assoc]
  exact takeEvents_append (takeEvents_hostEvents p s) _

section
variable {p : Pins} {s : State} (noReset : p.rst = false)
include noReset

/-- With no draw consumed and no completion due the edge is the access alone. -/
theorem clockEdge_access {finishes : Bool} (nothing : coreEvents p finishes s = []) :
    clockEdge p finishes s = .next (hostAccess p s) := by
  rw [clockEdge_eq noReset, nothing, takeEvents]

/-- A completion due runs after the access. -/
theorem clockEdge_completion {i : Instr} (busy : s.status.busy = true) (selects : s.latch.opc = opcodeOf i)
    (noRequest : rndReq s = false) : clockEdge p true s = exec i (hostAccess p s) := by
  have due : coreEvents p true s = [.completion] := by simp [coreEvents, busy, noRequest]
  obtain ⟨stillBusy, latch, _⟩ := hostAccess_running p busy
  rw [clockEdge_eq noReset, due, takeEvents_singleton]
  exact coreTurn_of_busy stillBusy (latch ▸ selects)

/-- A requested draw is consumed after the access, and nothing completes (notes/assumptions/15.md). -/
theorem clockEdge_draw (finishes : Bool) (request : rndReq s = true) (valid : p.rndValid = true) :
    clockEdge p finishes s = .next ((hostAccess p s).setDraws (s.draws ++ [p.rndIdx])) := by
  have drawn : coreEvents p finishes s = [.draw p.rndIdx] := by simp [coreEvents, request, valid]
  obtain ⟨_, _, draws⟩ := hostAccess_running p ((rndReq_iff s).mp request).1
  rw [clockEdge_eq noReset, drawn, takeEvents_singleton, takeEvent, offerDraw_consumed (rndReq_hostAccess p request), draws]

end

/-- A draw is requested only while BUSY = 1 (R75). -/
theorem rndReq_of_notBusy {s : State} (idle : s.status.busy = false) : rndReq s = false := by
  simp [rndReq, idle]

/-- Settles O53: an edge is the access, then what `coreEvents` says; a CMD write in a cycle with a command in progress is dropped. -/
theorem hostAccessPrecedesTheCompletion : Obligations.HostAccessPrecedesTheCompletion := by
  rintro p s _ noReset rfl
  change (∀ i, _ → _ → _ → clockEdge p true s = exec i (hostAccess p s) ∧ _) ∧ _
  refine ⟨fun i busy selects noRequest => ⟨clockEdge_completion noReset busy selects noRequest, fun sel we addr notFatal => ?_⟩,
    fun sel we => ?_, fun finishes => clockEdge_draw noReset finishes, fun finishes request invalid => ?_, fun noRequest => ?_,
    fun finishes idle => ?_⟩
  · have dropped : hostAccess p s = dropCommand s := by
      rw [hostAccess, if_pos sel, if_pos we, addr]
      exact issueCommand_running busy notFatal p.hWdata
    rw [clockEdge_completion noReset busy selects noRequest, dropped]
    rfl
  · rw [hRdata, sel, we]
    rfl
  · exact clockEdge_access noReset (by simp [coreEvents, request, invalid])
  · exact clockEdge_access noReset (by simp [coreEvents, noRequest])
  · exact clockEdge_access noReset (by simp [coreEvents, idle, rndReq_of_notBusy idle])

/-- Settles O52: at an edge with `rst` = 1 the reset is the only event. -/
theorem resetPinOverridesTheEdge : Obligations.ResetPinOverridesTheEdge := by
  intro p finishes s reset
  refine ⟨applyReset s, ?_, allSlotsReadZero_applyReset s, rfl, rfl⟩
  rw [clockEdge, edgeEvents, if_pos reset, takeEvents_singleton, takeEvent]

end Sys2Proof.Machine
end

section
/-! PROOFS. The reset state, the DEAD condition, and the words of CMD and STATUS (30_encoding.md R93, 10_state.md R27, 60_exceptions.md R194,
70_reset_and_hazards.md R221). -/
namespace Sys2Proof.Machine

/-- Settles O3: the five words are the codes of their commands, which `decode` inverts. -/
theorem tableWordsDecode : Obligations.TableWordsDecode := by
  refine ⟨?_, ?_, ?_, ?_, ?_⟩ <;> exact (decode_eq_ok_iff_eq_encode _ _).mpr rfl

/-- Settles O49: a reset in the reset state changes nothing, and after a reset every slot reads 0. -/
theorem resetStateReadsZero : Obligations.ResetStateReadsZero :=
  ⟨allSlotsReadZero_applyReset State.reset, rfl, rfl⟩

/-- A bit of a word, read off its number. -/
theorem getLsbD_of_toNat {w : Word} {i : Nat} {b : Bool} (bit : w.toNat / 2 ^ i % 2 = b.toNat) : w.getLsbD i = b := by
  rw [← BitVec.testBit_toNat, Nat.testBit_eq_decide_div_mod_eq, bit]
  cases b <;> rfl

/-- A field of a word, read off its number. -/
theorem extractLsb'_of_toNat {w : Word} {start len : Nat} {v : BitVec len} (field : w.toNat / 2 ^ start % 2 ^ len = v.toNat) :
    w.extractLsb' start len = v :=
  BitVec.eq_of_toNat_eq (by rw [BitVec.extractLsb'_toNat, Nat.shiftRight_eq_div_pow, field])

/-- Settles O8: each flag has the weight of its bit in the word as a number, and ERRCODE that of bit 8, so each quotient leaves the one
flag. -/
theorem statusWordBits : Obligations.StatusWordBits := by
  intro s
  have word : (hostRead 1 s).toNat = _ := toNat_statusWord s.status
  have busy := s.status.busy.toNat_lt
  have done := s.status.done.toNat_lt
  have err := s.status.err.toNat_lt
  have noinv := s.status.noinv.toNat_lt
  have fatal := s.status.fatal.toNat_lt
  have keyvalid := s.status.keyvalid.toNat_lt
  have cmddrop := s.status.cmddrop.toNat_lt
  have errcode := s.status.errcode.isLt
  refine ⟨getLsbD_of_toNat ?_, getLsbD_of_toNat ?_, getLsbD_of_toNat ?_, getLsbD_of_toNat ?_, getLsbD_of_toNat ?_,
    getLsbD_of_toNat ?_, getLsbD_of_toNat ?_, getLsbD_of_toNat ?_, extractLsb'_of_toNat ?_, extractLsb'_of_toNat ?_⟩
  case refine_8 => rw [word, Bool.toNat_false]; omega
  case refine_10 => rw [word, BitVec.ofNat_eq_ofNat, BitVec.toNat_zero]; omega
  all_goals rw [word]; omega
/-- Only slot 1 shows STATUS (R61). -/
theorem hostRead_setStatus {i : Slot} (notStatus : i ≠ 1) (f : Status) (s : State) : hostRead i (s.setStatus f) = hostRead i s := by
  simp only [hostRead_eq_ite, if_neg notStatus]
  rfl

/-- Settles O48: after an InvariantViolation FATAL = 1, which an issue is ignored in and every event but reset keeps; the error completion
writes no register but STATUS. -/
theorem fatalErrorLastsUntilReset : Obligations.FatalErrorLastsUntilReset := by
  rintro s _ rfl
  have fatal : (raiseError .invariantViolation s).status.fatal = true := by simp [raiseError]
  refine ⟨by rw [Status.condition, if_pos fatal], fun w => ?_, fun v => rfl, fun v => rfl, fun v => rfl, fun i readable => ?_,
    ⟨_, rfl, rfl⟩, fun ev u notReset h => (takeEvent_keeps_key notReset h).1 fatal⟩
  · rw [takeEvent_hostWrite_zero, issueCommand_dead fatal]
  · have notStatus : i ≠ 1 := by
      rintro rfl
      exact absurd readable (by decide)
    exact hostRead_setStatus notStatus _ s

end Sys2Proof.Machine
end
